-- ==== Sys2Proof/Word.lean ====
section
/-!
DEFINITION. The widths of the LFSR keystream core (00_scope.md R6, R10; 30_encoding.md R40, R46).

Every value the core computes is a single bit (41_keystream_core.md R76). A bit is a `Bool`; the registers, the
command word and the control vector are bit vectors. `x.getLsbD i` reads bit `i` of weight `2^i`: index 0 is the most
recently shifted-in bit and the highest index is the output tap (00_scope.md R11, R12).
-/

namespace Sys2Proof

/-- Contents of register R1: 19 bits (R6). -/
abbrev R1Bits := BitVec 19

/-- Contents of register R2: 22 bits (R6). -/
abbrev R2Bits := BitVec 22

/-- Contents of register R3: 23 bits (R6). -/
abbrev R3Bits := BitVec 23

/-- The opcode port `op[2:0]` (10_state.md R25). -/
abbrev Opcode := BitVec 3

/-- The command word `cw[3:0] = op ++ din` (30_encoding.md R40). -/
abbrev CmdWord := BitVec 4

/-- The control vector `pc[4:0]` of a primitive, `clr` in bit 4 down to `ib` in bit 0 (30_encoding.md R46). -/
abbrev CtrlVec := BitVec 5

/-- A session key: exactly 64 bits (00_scope.md R7). -/
abbrev SessionKey := BitVec 64

/-- A frame counter: exactly 22 bits (00_scope.md R7). -/
abbrev FrameCounter := BitVec 22

/-- A byte of the host's data (20_memory.md R34). -/
abbrev Byte := BitVec 8

end Sys2Proof
end

