-- ==== Sys2Proof/Config.lean ====
section
/-!
DEFINITION. What is fixed at elaboration (00_scope.md R6 to R9, 10_state.md R18), the session constants (R7), and the
values the spec leaves OPEN or unspecified, as constants without a body.
-/

namespace Sys2Proof

/-- The elaboration-time parameters of one shift-register primitive (00_scope.md R9, 40_shift_register.md R50):
its length `LEN`, its clocking index `CI` and its feedback taps `TAPS`. -/
structure Params where
  len  : Nat
  ci   : Nat
  taps : List Nat
deriving DecidableEq, Repr

/-- The two elaboration-time parameters of a build of the core (00_scope.md R8). -/
structure Build where
  /-- `COMPAT_R3_OVERWRITE`: whether `op = 101` is the command `LDR3C`. -/
  compatR3Overwrite : Bool
  /-- `R3_OVERWRITE_VALUE`: the 23-bit constant that `LDR3C` loads. -/
  r3OverwriteValue  : R3Bits
deriving DecidableEq, Repr

namespace Config

/-- Register R1: LEN 19, CI 8, TAPS 13, 16, 17, 18 (R6). -/
def r1 : Params := { len := 19, ci := 8, taps := [13, 16, 17, 18] }

/-- Register R2: LEN 22, CI 10, TAPS 20, 21 (R6). -/
def r2 : Params := { len := 22, ci := 10, taps := [20, 21] }

/-- Register R3: LEN 23, CI 10, TAPS 7, 20, 21, 22 (R6). -/
def r3 : Params := { len := 23, ci := 10, taps := [7, 20, 21, 22] }

/-- `KEY_BITS` (R7). -/
def keyBits : Nat := 64

/-- `FRAME_BITS` (R7). -/
def frameBits : Nat := 22

/-- `WARMUP_ROUNDS` (R7). -/
def warmupRounds : Nat := 100

/-- The value of `R3_OVERWRITE_VALUE` in the build that `State.reset` shows: OPEN in the spec (R8, D10), so a constant
without a body. Statements hold for every value, since the value stands in `Build`. -/
opaque r3OverwriteValue : R3Bits

/-- The default build: `COMPAT_R3_OVERWRITE = 0` (R8, R113). -/
def defaultBuild : Build := { compatR3Overwrite := false, r3OverwriteValue := r3OverwriteValue }

/-! Free draws for the state before the first reset (10_state.md R28) and after a loss of power (60_exceptions.md R107):
unspecified, "any value" (93_implementation_defined.md I1, I10). The argument counts the power-ups. -/

/-- Free draw for R1 at the `n`-th power-up. -/
opaque powerOnR1 : Nat → R1Bits
/-- Free draw for R2 at the `n`-th power-up. -/
opaque powerOnR2 : Nat → R2Bits
/-- Free draw for R3 at the `n`-th power-up. -/
opaque powerOnR3 : Nat → R3Bits
/-- Free draw for KSV at the `n`-th power-up. -/
opaque powerOnKsv : Nat → Bool
/-- Free draw for ERR at the `n`-th power-up. -/
opaque powerOnErr : Nat → Bool
/-- Free draw for the register of a primitive of length `len` at the `n`-th power-up. -/
opaque powerOnQ : Nat → (len : Nat) → BitVec len

end Config

end Sys2Proof
end

