-- ==== Sys2Proof/Syntax.lean ====
section
/-!
DEFINITION. The instructions: one constructor for each of the 14 rows of spec/opcode_table.json, and the two formats
their words have (30_encoding.md).
-/

namespace Sys2Proof

/-- The commands of the core (format CMD, 41_keystream_core.md R69 to R75) and the operations of the shift-register
primitive (format PRIM, 40_shift_register.md R56 to R60). -/
inductive Instr where
  /-- `NOP`, `op = 000` (R69). -/
  | nop
  /-- `CLR`, `op = 001` (R70). -/
  | clr
  /-- `LOAD b`, `op = 010`, `b = din` (R71). -/
  | load (b : Bool)
  /-- `WARM`, `op = 011` (R72). -/
  | warm
  /-- `GEN`, `op = 100` (R73). -/
  | gen
  /-- `LDR3C`, `op = 101` in a build with `COMPAT_R3_OVERWRITE = 1` (R74). -/
  | ldr3c
  /-- The reserved command `op = 101` in a build with `COMPAT_R3_OVERWRITE = 0` (R75). -/
  | reserved101
  /-- The reserved command `op = 110` (R75). -/
  | reserved110
  /-- The reserved command `op = 111` (R75). -/
  | reserved111
  /-- `P.CLEAR` (R60). -/
  | pClear
  /-- `P.LOAD`; its operand is the value on the primitive's `ld_val` port, which is no part of the control vector (R59). -/
  | pLoad (ldVal : Nat)
  /-- `P.HOLD` (R56). -/
  | pHold
  /-- `P.SHIFTU b`, `b = ib` (R57). -/
  | pShiftU (b : Bool)
  /-- `P.SHIFTG b`, `b = ib` (R58). -/
  | pShiftG (b : Bool)
deriving DecidableEq, Repr

/-- An instruction as the hardware receives it: a command word on the core's ports (R40), or a control vector and the
`ld_val` port of a primitive (R46, R52). The two are different ports: a number alone does not say which it is. -/
inductive Encoded where
  | cmd  (cw : CmdWord)
  | ctrl (pc : CtrlVec) (ldVal : Nat)
deriving DecidableEq, Repr

/-- The instruction is a command of the core (format CMD), not an operation of a primitive (format PRIM). -/
def Instr.isCommand : Instr → Bool
  | .nop | .clr | .load _ | .warm | .gen | .ldr3c | .reserved101 | .reserved110 | .reserved111 => true
  | .pClear | .pLoad _ | .pHold | .pShiftU _ | .pShiftG _ => false

/-- The instruction is one of the reserved commands (30_encoding.md R44). -/
def Instr.isReserved : Instr → Bool
  | .reserved101 | .reserved110 | .reserved111 => true
  | .nop | .clr | .load _ | .warm | .gen | .ldr3c => false
  | .pClear | .pLoad _ | .pHold | .pShiftU _ | .pShiftG _ => false

end Sys2Proof
end

