-- ==== Sys2Proof/WellFormed.lean ====
section
/-!
DEFINITION. The checks made before anything runs: the legality of a primitive's parameters (40_shift_register.md R50)
and whether an instruction exists in a build (30_encoding.md R44) and for a primitive of a length (R59).
-/

namespace Sys2Proof

/-- Why an instance of the primitive is refused at elaboration (R50, 93_implementation_defined.md I5). -/
inductive ParamProblem where
  /-- `LEN < 1`. -/
  | lenZero
  /-- `CI` is not below `LEN`. -/
  | ciOutOfRange
  /-- A tap is not below `LEN`. -/
  | tapOutOfRange
  /-- A tap index is listed twice. -/
  | tapRepeated
deriving DecidableEq, Repr

/-- No index is listed twice. -/
def noRepeat : List Nat → Bool
  | [] => true
  | t :: ts => !ts.contains t && noRepeat ts

/-- The first condition of R50 that the parameters break; `none` where they are legal. The empty tap set is legal. -/
def Params.problem (p : Params) : Option ParamProblem :=
  if p.len = 0 then some .lenZero
  else if !decide (p.ci < p.len) then some .ciOutOfRange
  else if !p.taps.all (fun t => decide (t < p.len)) then some .tapOutOfRange
  else if !noRepeat p.taps then some .tapRepeated
  else none

/-- The instruction exists in a build: `op = 101` is `LDR3C` when `COMPAT_R3_OVERWRITE = 1` and reserved otherwise
(R44). -/
def Instr.inBuild (compat : Bool) : Instr → Bool
  | .ldr3c => compat
  | .reserved101 => !compat
  | .nop | .clr | .load _ | .warm | .gen | .reserved110 | .reserved111 => true
  | .pClear | .pLoad _ | .pHold | .pShiftU _ | .pShiftG _ => true

/-- The operand of `P.LOAD` fits the primitive's `LEN`-bit `ld_val` port (R52, R59). -/
def Instr.fitsLen (len : Nat) : Instr → Bool
  | .pLoad v => decide (v < 2 ^ len)
  | .nop | .clr | .load _ | .warm | .gen | .ldr3c | .reserved101 | .reserved110 | .reserved111 => true
  | .pClear | .pHold | .pShiftU _ | .pShiftG _ => true

/-- The instruction is one the hardware can be given: it exists in the build, and its operand fits. -/
def Instr.wellFormed (compat : Bool) (len : Nat) (i : Instr) : Bool := i.inBuild compat && i.fitsLen len

end Sys2Proof
end

