-- ==== Sys2Proof/Machine/State.lean ====
section
/-!
DEFINITION. The state: the architectural state of one core (10_state.md R15), one stand-alone shift-register primitive
(40_shift_register.md R51), the build they were elaborated for (10_state.md R18), and the inputs that the surroundings
present at the coming clock edges (10_state.md R25, 40_shift_register.md R52). There is no program counter (R23) and
no memory (20_memory.md R30).
-/

namespace Sys2Proof.Machine

/-- One instance of the shift-register primitive (R50, R51): its parameters, which are legal (an instance with others is
refused at elaboration), and its register `q`. -/
structure Prim where
  params : Params
  legal  : params.problem = none := by decide
  /-- `q[LEN-1:0]`: `q[0]` is the most recently shifted-in bit (R51). Its type is its width, law (a) of R62. -/
  q      : BitVec params.len
deriving DecidableEq, Repr

/-- The input ports of the core, apart from `clk` (10_state.md R25). -/
structure CorePorts where
  rst : Bool
  op  : BitVec 3
  din : Bool
deriving DecidableEq, Repr

/-- The input ports of a primitive, apart from `clk` (40_shift_register.md R52). Of the number `ldVal` the port's `LEN`
wires carry the low `LEN` bits. -/
structure PrimPorts where
  rst   : Bool
  clr   : Bool
  ld    : Bool
  en    : Bool
  mode  : Bool
  ib    : Bool
  ldVal : Nat
deriving DecidableEq, Repr

/-- One rising edge of `clk` with the values sampled there (70_reset_and_hazards.md R108), at the core or at the
stand-alone primitive. The two are separate hardware with a clock and a reset each; the order of two edges at different
ones is not observable, since they share no state (10_state.md R29). -/
inductive Edge where
  | core (p : CorePorts)
  | prim (p : PrimPorts)
deriving DecidableEq, Repr

/-- The machine. `r1`, `r2`, `r3`, `ksv` and `err` are exactly the architectural state of the core (R15). -/
structure State where
  /-- Register R1 (R15). -/
  r1     : BitVec 19
  /-- Register R2 (R15). -/
  r2     : BitVec 22
  /-- Register R3 (R15). -/
  r3     : BitVec 23
  /-- `KSV`, keystream valid (R21). -/
  ksv    : Bool
  /-- `ERR`, the sticky error bit (R22). -/
  err    : Bool
  /-- The build: configuration, which no step writes (R18, R113). -/
  build  : Build
  /-- The stand-alone primitive (40_shift_register.md). Its parameters are configuration, which no step writes. -/
  prim   : Prim
  /-- What the host will present, the next edge first (R23). No edge listed: the host is idle and presents `NOP`
  (30_encoding.md R40). -/
  inputs : List Edge
deriving DecidableEq, Repr

/-- The ways a step can stop the machine with a fault: there are NONE. The core's only error is recorded in `ERR` and the
core goes on (60_exceptions.md R96 to R98); nobody raises a fault. -/
inductive Fault where
deriving DecidableEq, Repr

/-- The ways a step can be refused. -/
inductive Refusal where
  /-- An instruction that has no meaning yet; raised by an arm of `exec` alone, and no arm does. Safe: it stops where the
  hardware goes on. -/
  | notModelled (mnemonic : String)
deriving DecidableEq, Repr

/-- The reset values (10_state.md R27, 70_reset_and_hazards.md R109) in the default build (R8), with a stand-alone
primitive in the configuration of R1 after its own reset (40_shift_register.md R53), and an idle host. -/
def State.reset : State where
  r1     := 0#19
  r2     := 0#22
  r3     := 0#23
  ksv    := false
  err    := false
  build  := Config.defaultBuild
  prim   := { params := Config.r1, q := 0#19 }
  inputs := []

/-- The machine after its `n`-th power-up and before its first reset edge: every state bit is a free draw (10_state.md
R28, 93_implementation_defined.md I1); the same after a loss of power (60_exceptions.md R107, I10). The configuration and the inputs to
come are as given. -/
def State.powerOn (build : Build) (params : Params) (legal : params.problem = none) (inputs : List Edge) (n : Nat) :
    State where
  r1     := Config.powerOnR1 n
  r2     := Config.powerOnR2 n
  r3     := Config.powerOnR3 n
  ksv    := Config.powerOnKsv n
  err    := Config.powerOnErr n
  build  := build
  prim   := { params := params, legal := legal, q := Config.powerOnQ n params.len }
  inputs := inputs

end Sys2Proof.Machine
end

