-- ==== Sys2Proof/Machine/Flags.lean ====
section
/-!
DEFINITION. The two status bits and the only ways they are written (10_state.md R17, R21, R22).
-/

namespace Sys2Proof.Machine

/-- `KSV <- b` (R21). -/
def State.setKsv (b : Bool) (s : State) : State := { s with ksv := b }

/-- `raise ERR`: `ERR <- 1`, sticky (00_scope.md R13, 10_state.md R22). -/
def State.raiseErr (s : State) : State := { s with err := true }

end Sys2Proof.Machine
end

