-- ==== Sys2Proof/Decode.lean ====
section
/-!
DEFINITION. The decoder of the command word (30_encoding.md R40 to R45) and of the primitive's control vector (R46),
and the encoder written from the same tables. Every 4-bit command word and every 5-bit control vector decodes: the
reserved command words are commands whose effect is R75. A width other than these two is rejected by name (R45).
-/

namespace Sys2Proof

/-- The field `op = cw[3:1]` (R40). -/
def opField (cw : CmdWord) : Opcode := cw.extractLsb' 1 3

/-- The field `din = cw[0]` (R40). -/
def dinField (cw : CmdWord) : Bool := cw.getLsbD 0

/-- The command word of an opcode and a data bit: `cw = op ++ din` (R40). -/
def cmdWord (op : Opcode) (din : Bool) : CmdWord := op ++ BitVec.ofBool din

/-- The opcode map (R42). `din` is read by `LOAD` alone (R41, R43); `op = 101` depends on the build (R44). -/
def decodeCmd (compat : Bool) (cw : CmdWord) : Instr :=
  match (opField cw).toNat with
  | 0 => .nop
  | 1 => .clr
  | 2 => .load (dinField cw)
  | 3 => .warm
  | 4 => .gen
  | 5 => if compat then .ldr3c else .reserved101
  | 6 => .reserved110
  | _ => .reserved111

/-- The control vector of five signals, `clr` in bit 4, `ld` in bit 3, `en` in bit 2, `mode` in bit 1, `ib` in bit 0
(R46). -/
def ctrlVec (clr ld en mode ib : Bool) : CtrlVec :=
  BitVec.ofBool clr ++ BitVec.ofBool ld ++ BitVec.ofBool en ++ BitVec.ofBool mode ++ BitVec.ofBool ib

/-- The control-vector table (R46): `clr` over `ld` over `en`; `mode = 0` is UNCONDITIONAL, `mode = 1` is
MAJORITY_GATED. `ldVal` is what stands on the `ld_val` port. -/
def decodeCtrl (pc : CtrlVec) (ldVal : Nat) : Instr :=
  if pc.getLsbD 4 then .pClear
  else if pc.getLsbD 3 then .pLoad ldVal
  else if !pc.getLsbD 2 then .pHold
  else if !pc.getLsbD 1 then .pShiftU (pc.getLsbD 0)
  else .pShiftG (pc.getLsbD 0)

/-- The instruction that the hardware of a build reads from what is presented to it. -/
def decode (compat : Bool) : Encoded → Instr
  | .cmd cw => decodeCmd compat cw
  | .ctrl pc ldVal => decodeCtrl pc ldVal

/-- The word of an instruction: `din = 0` where `din` is ignored (R43), and 0 for the don't-care signals of a control
vector (R46). -/
def encode : Instr → Encoded
  | .nop => .cmd (cmdWord 0b000#3 false)
  | .clr => .cmd (cmdWord 0b001#3 false)
  | .load b => .cmd (cmdWord 0b010#3 b)
  | .warm => .cmd (cmdWord 0b011#3 false)
  | .gen => .cmd (cmdWord 0b100#3 false)
  | .ldr3c => .cmd (cmdWord 0b101#3 false)
  | .reserved101 => .cmd (cmdWord 0b101#3 false)
  | .reserved110 => .cmd (cmdWord 0b110#3 false)
  | .reserved111 => .cmd (cmdWord 0b111#3 false)
  | .pClear => .ctrl (ctrlVec true false false false false) 0
  | .pLoad v => .ctrl (ctrlVec false true false false false) v
  | .pHold => .ctrl (ctrlVec false false false false false) 0
  | .pShiftU b => .ctrl (ctrlVec false false true false b) 0
  | .pShiftG b => .ctrl (ctrlVec false false true true b) 0

/-- The command word of a command of the core; `none` for an operation of a primitive, which has no command word. -/
def commandWord? (i : Instr) : Option CmdWord :=
  match encode i with
  | .cmd cw => some cw
  | .ctrl _ _ => none

/-- Why a number of a given width is no word of the hardware. -/
inductive DecodeProblem where
  /-- There is no format of this width: commands have 4 bits and control vectors 5 (R40, R45, R46). -/
  | noSuchFormat
  /-- The number does not fit the format's width. -/
  | wordTooWide
deriving DecidableEq, Repr

/-- Reads a number of a given width as a word: 4 bits are a command word, 5 bits a control vector, whose `ld_val` port
is taken to carry 0. Every other width is rejected. -/
def encodedOfBits (width w : Nat) : Except DecodeProblem Encoded :=
  if width = 4 then
    if w < 16 then .ok (.cmd (BitVec.ofNat 4 w)) else .error .wordTooWide
  else if width = 5 then
    if w < 32 then .ok (.ctrl (BitVec.ofNat 5 w) 0) else .error .wordTooWide
  else .error .noSuchFormat

/-- The width a row of spec/opcode_table.json has when its word is given in whole bytes. The command word and the
control vector stand on different ports, so as bare numbers of 8 bits they overlap; a number that fits a command word
is read as one, and a wider one as a control vector (log entry 9). -/
def tableWidth (nbits w : Nat) : Nat :=
  if nbits = 8 then (if w < 16 then 4 else 5) else nbits

/-- What the hardware is presented with when a word of the table is given to it. -/
def encodedOfTableWord (nbits w : Nat) : Except DecodeProblem Encoded := encodedOfBits (tableWidth nbits w) w

/-- The instruction the decoder of the DEFAULT build (`COMPAT_R3_OVERWRITE = 0`, R8) reads from a word of
spec/opcode_table.json: `op = 101` is reserved in it (R44). -/
def decodeTableWord (nbits w : Nat) : Option Instr :=
  match encodedOfTableWord nbits w with
  | .ok e => some (decode Config.defaultBuild.compatR3Overwrite e)
  | .error _ => none

end Sys2Proof
end

