-- ==== Sys2Proof/Machine/Operands.lean ====
section
/-!
DEFINITION. What is read: the clocking bits and output bits of the registers (10_state.md R19, R20), the output ports
(R25, 40_shift_register.md R61), the words on the input ports (30_encoding.md R40, R46), and the operand of `P.LOAD`
(40_shift_register.md R59). No read changes state (20_memory.md R36).
-/

namespace Sys2Proof.Machine

/-- The clocking bit of a register: `q[CI]` (R19, R61 `cbit`). -/
def clockBit {n : Nat} (ci : Nat) (q : BitVec n) : Bool := q.getLsbD ci

/-- The output bit of a register: `q[LEN-1]` (R20, R61 `obit`). -/
def outBit {n : Nat} (q : BitVec n) : Bool := q.getLsbD (n - 1)

/-- `C1` (R19). -/
def State.c1 (s : State) : Bool := clockBit Config.r1.ci s.r1
/-- `C2` (R19). -/
def State.c2 (s : State) : Bool := clockBit Config.r2.ci s.r2
/-- `C3` (R19). -/
def State.c3 (s : State) : Bool := clockBit Config.r3.ci s.r3

/-- `O1` (R20). -/
def State.o1 (s : State) : Bool := outBit s.r1
/-- `O2` (R20). -/
def State.o2 (s : State) : Bool := outBit s.r2
/-- `O3` (R20). -/
def State.o3 (s : State) : Bool := outBit s.r3

/-- The combiner: `ks = O1 ^ O2 ^ O3` of the current state (41_keystream_core.md R66). -/
def State.ks (s : State) : Bool := (s.o1 ^^ s.o2) ^^ s.o3

/-- The output ports of the core (R25). -/
structure CoreOutputs where
  ks  : Bool
  ksv : Bool
  err : Bool
  r1q : R1Bits
  r2q : R2Bits
  r3q : R3Bits
deriving DecidableEq, Repr

/-- The values on the core's output ports: a function of the state alone (R26). -/
def State.outputs (s : State) : CoreOutputs :=
  { ks := s.ks, ksv := s.ksv, err := s.err, r1q := s.r1, r2q := s.r2, r3q := s.r3 }

/-- `q_out` of the stand-alone primitive (40_shift_register.md R61). -/
def Prim.qOut (p : Prim) : BitVec p.params.len := p.q
/-- `cbit` of the stand-alone primitive (R61). -/
def Prim.cbit (p : Prim) : Bool := clockBit p.params.ci p.q
/-- `obit` of the stand-alone primitive (R61). -/
def Prim.obit (p : Prim) : Bool := outBit p.q

/-- The command word on the core's ports (R40). -/
def CorePorts.word (p : CorePorts) : CmdWord := cmdWord p.op p.din

/-- The control vector on the primitive's ports (R46). -/
def PrimPorts.vector (p : PrimPorts) : CtrlVec := ctrlVec p.clr p.ld p.en p.mode p.ib

/-- What the `LEN` wires of the `ld_val` port carry (R52). -/
def ldValPort (n v : Nat) : BitVec n := BitVec.ofNat n v

end Sys2Proof.Machine
end

