-- ==== Sys2Proof/Machine/Ops.lean ====
section
/-!
DEFINITION. The operations the instructions share: feedback, shift and the two clock modes of one register
(40_shift_register.md), the majority unit and the clocking of all three registers (41_keystream_core.md), the reserved
command, and reset (70_reset_and_hazards.md R109).

The core has no traps (60_exceptions.md R101): its one error saves no state and control goes nowhere. What "taking an
exception" is elsewhere is `State.reserved` here, and there is no return from it but reset (R102).
-/

namespace Sys2Proof.Machine

/-- `fb(q)`: the parity of the tap bits, 0 for no taps (40_shift_register.md R54). -/
def feedback {n : Nat} (taps : List Nat) (q : BitVec n) : Bool :=
  taps.foldl (fun parity t => parity ^^ q.getLsbD t) false

/-- `shift(q, b)`: `b` enters at index 0, every bit moves up one index, the bit at `LEN-1` is dropped (R55). -/
def shift {n : Nat} (q : BitVec n) (b : Bool) : BitVec n := q.shiftConcat b

/-- The UNCONDITIONAL clock (R57). It always shifts, is linear over GF(2) and keeps zero under 0: laws (c), (d) and (f) of
R62. -/
def shiftU {n : Nat} (taps : List Nat) (q : BitVec n) (b : Bool) : BitVec n := shift q (feedback taps q ^^ b)

/-- The MAJORITY_GATED clock: it shifts only where the clocking bit equals the input bit, which is not XORed into the
feedback (R58). It holds on disagreement, equals the unconditional clock of 0 where it shifts, and keeps zero: laws (b),
(e) and (f) of R62. -/
def shiftG {n : Nat} (ci : Nat) (taps : List Nat) (q : BitVec n) (b : Bool) : BitVec n :=
  if clockBit ci q == b then shift q (feedback taps q) else q

/-- The majority unit: `(C1 + C2 + C3) >> 1` (41_keystream_core.md R64). -/
def majority (c1 c2 c3 : Bool) : Bool := (c1.toNat + c2.toNat + c3.toNat) >>> 1 == 1

/-- `maj` of the current clocking bits (R64). -/
def State.maj (s : State) : Bool := majority s.c1 s.c2 s.c3

/-- All three registers clocked in UNCONDITIONAL mode with the same bit (R71). -/
def State.clockU (b : Bool) (s : State) : State :=
  { s with
    r1 := shiftU Config.r1.taps s.r1 b
    r2 := shiftU Config.r2.taps s.r2 b
    r3 := shiftU Config.r3.taps s.r3 b }

/-- All three registers clocked in MAJORITY_GATED mode with the majority of the state before the edge (R72, R73),
together (R68). -/
def State.clockG (s : State) : State :=
  { s with
    r1 := shiftG Config.r1.ci Config.r1.taps s.r1 s.maj
    r2 := shiftG Config.r2.ci Config.r2.taps s.r2 s.maj
    r3 := shiftG Config.r3.ci Config.r3.taps s.r3 s.maj }

/-- All three registers cleared (R70). -/
def State.clearRegs (s : State) : State := { s with r1 := 0#19, r2 := 0#22, r3 := 0#23 }

/-- `R3 <- R3_OVERWRITE_VALUE` (R74). -/
def State.overwriteR3 (s : State) : State := { s with r3 := s.build.r3OverwriteValue }

/-- A reserved command: no register changes, `KSV <- 0`, `ERR <- 1` (R75). -/
def State.reserved (s : State) : State := (s.setKsv false).raiseErr

/-- Reset of the core (70_reset_and_hazards.md R109). -/
def State.resetCore (s : State) : State :=
  { s with r1 := 0#19, r2 := 0#22, r3 := 0#23, ksv := false, err := false }

/-- A new value for the register of the stand-alone primitive, made from the primitive. -/
def State.onPrim (f : (p : Prim) → BitVec p.params.len) (s : State) : State :=
  { s with prim := { s.prim with q := f s.prim } }

/-- Reset of the stand-alone primitive: `q <- 0` (40_shift_register.md R53). -/
def State.resetPrim (s : State) : State := s.onPrim fun _ => 0#_

end Sys2Proof.Machine
end

