-- ==== Sys2Proof/Machine/Commands.lean ====
section
/-!
DEFINITION. The commands of the core (41_keystream_core.md R69 to R74). Each is total (60_exceptions.md R96).
-/

namespace Sys2Proof.Machine

/-- What a step of this machine answers. -/
abbrev Result := Host.Outcome State Fault Refusal

/-- `NOP` (R69): the registers hold, `KSV <- 0`. -/
def execNop (s : State) : Result := .next (s.setKsv false)

/-- `CLR` (R70): the registers are cleared, `KSV <- 0`; ERR is kept. -/
def execClr (s : State) : Result := .next (s.clearRegs.setKsv false)

/-- `LOAD b` (R71): an UNCONDITIONAL clock of all three registers with `b`, `KSV <- 0`. -/
def execLoad (b : Bool) (s : State) : Result := .next ((s.clockU b).setKsv false)

/-- `WARM` (R72): a majority-gated round, `KSV <- 0`. -/
def execWarm (s : State) : Result := .next (s.clockG.setKsv false)

/-- `GEN` (R73): a majority-gated round, `KSV <- 1`; the emitted bit is `ks` of the state after it. -/
def execGen (s : State) : Result := .next (s.clockG.setKsv true)

/-- `LDR3C` (R74): in the compatibility build it overwrites R3, `KSV <- 0`; in the default build it is a reserved
command. -/
def execLdr3c (s : State) : Result :=
  if s.build.compatR3Overwrite then .next (s.overwriteR3.setKsv false) else .next s.reserved

end Sys2Proof.Machine
end

