-- ==== Sys2Proof/Machine/Primitive.lean ====
section
/-!
DEFINITION. The operations of the shift-register primitive (40_shift_register.md R56 to R60), on the stand-alone
instance, whatever its legal parameters. A primitive has no flags, so the core's state and its status bits hold.
The core's own three instances are driven by its commands alone (41_keystream_core.md R67).
-/

namespace Sys2Proof.Machine

/-- `P.CLEAR` (R60): `q <- 0`. -/
def execPClear (s : State) : Result := .next (s.onPrim fun _ => 0#_)

/-- `P.LOAD` (R59): `q <- ld_val`. -/
def execPLoad (ldVal : Nat) (s : State) : Result := .next (s.onPrim fun p => ldValPort p.params.len ldVal)

/-- `P.HOLD` (R56): `q <- q`. -/
def execPHold (s : State) : Result := .next (s.onPrim fun p => p.q)

/-- `P.SHIFTU b` (R57): the UNCONDITIONAL clock. -/
def execPShiftU (b : Bool) (s : State) : Result := .next (s.onPrim fun p => shiftU p.params.taps p.q b)

/-- `P.SHIFTG b` (R58): the MAJORITY_GATED clock. -/
def execPShiftG (b : Bool) (s : State) : Result :=
  .next (s.onPrim fun p => shiftG p.params.ci p.params.taps p.q b)

end Sys2Proof.Machine
end

