-- ==== Sys2Proof/Machine/Reserved.lean ====
section
/-!
DEFINITION. The reserved commands (41_keystream_core.md R75, 30_encoding.md R44). The fault they are is recorded in ERR
and the machine goes on (60_exceptions.md R97, R98), so each answers a next state.
-/

namespace Sys2Proof.Machine

/-- The reserved command `op = 101` of the default build (R75). -/
def execReserved101 (s : State) : Result := .next s.reserved

/-- The reserved command `op = 110` (R75). -/
def execReserved110 (s : State) : Result := .next s.reserved

/-- The reserved command `op = 111` (R75). -/
def execReserved111 (s : State) : Result := .next s.reserved

end Sys2Proof.Machine
end

