-- ==== Sys2Proof/Machine/Dispatch.lean ====
section
/-! DEFINITION. The meaning of every instruction, one arm per constructor. -/

namespace Sys2Proof.Machine

def exec (i : Instr) (s : State) : Host.Outcome State Fault Refusal :=
  match i with
  | .nop => Sys2Proof.Machine.execNop s
  | .clr => Sys2Proof.Machine.execClr s
  | .load b => Sys2Proof.Machine.execLoad b s
  | .warm => Sys2Proof.Machine.execWarm s
  | .gen => Sys2Proof.Machine.execGen s
  | .ldr3c => Sys2Proof.Machine.execLdr3c s
  | .reserved101 => Sys2Proof.Machine.execReserved101 s
  | .reserved110 => Sys2Proof.Machine.execReserved110 s
  | .reserved111 => Sys2Proof.Machine.execReserved111 s
  | .pClear => Sys2Proof.Machine.execPClear s
  | .pLoad ldVal => Sys2Proof.Machine.execPLoad ldVal s
  | .pHold => Sys2Proof.Machine.execPHold s
  | .pShiftU b => Sys2Proof.Machine.execPShiftU b s
  | .pShiftG b => Sys2Proof.Machine.execPShiftG b s

end Sys2Proof.Machine
end

