-- ==== Sys2Proof/Machine/Sampling.lean ====
section
/-!
DEFINITION. What a rising edge samples (70_reset_and_hazards.md R108): the host's next inputs, read as one action. Reset
has priority over every command (60_exceptions.md R100) and over every operation of a primitive
(40_shift_register.md R53). There is no program counter: the host supplies the commands (10_state.md R23).
-/

namespace Sys2Proof.Machine

/-- The one thing that happens at a rising edge (R100, R108). -/
inductive Action where
  | resetCore
  | resetPrim
  | run (i : Instr)
deriving DecidableEq, Repr

/-- The edge at which an idle host presents `NOP` (30_encoding.md R40). -/
def idleEdge : Edge := .core { rst := false, op := 0b000#3, din := false }

/-- What an edge does: reset where `rst = 1`, else the instruction that the ports carry. -/
def edgeAction (compat : Bool) : Edge → Action
  | .core p => if p.rst then .resetCore else .run (decode compat (.cmd p.word))
  | .prim p => if p.rst then .resetPrim else .run (decode compat (.ctrl p.vector p.ldVal))

/-- The edge that comes next. -/
def State.nextEdge (s : State) : Edge := s.inputs.headD idleEdge

/-- The machine with the next edge taken from its inputs. -/
def State.takeEdge (s : State) : State := { s with inputs := s.inputs.tail }

/-- The edge that presents an encoded instruction, with `rst = 0`. -/
def edgeOfEncoded : Encoded → Edge
  | .cmd cw => .core { rst := false, op := opField cw, din := dinField cw }
  | .ctrl pc v =>
    .prim { rst := false, clr := pc.getLsbD 4, ld := pc.getLsbD 3, en := pc.getLsbD 2, mode := pc.getLsbD 1,
            ib := pc.getLsbD 0, ldVal := v }

/-- The edge that presents an instruction by its encoding. -/
def edgeOfInstr (i : Instr) : Edge := edgeOfEncoded (encode i)

/-- The host presents one more edge, before those already listed. -/
def State.present (e : Edge) (s : State) : State := { s with inputs := e :: s.inputs }

end Sys2Proof.Machine
end

