-- ==== Sys2Proof/Machine/Step.lean ====
section
/-!
DEFINITION. One step is one rising edge of `clk` (70_reset_and_hazards.md R108): the next edge is taken from the inputs,
and its one action happens, with its whole effect in the state after it (R114, R115; 20_memory.md R36, R37).
-/

namespace Sys2Proof.Machine

/-- One rising edge. -/
def step (s : State) : Host.Outcome State Fault Refusal :=
  match edgeAction s.build.compatR3Overwrite s.nextEdge with
  | .resetCore => .next s.takeEdge.resetCore
  | .resetPrim => .next s.takeEdge.resetPrim
  | .run i => exec i s.takeEdge

/-- The host presents a word of spec/opcode_table.json at the next edge. A number that is no word of the hardware cannot
be presented and leaves the inputs as they are. -/
def State.withFetchWord (s : State) (nbits w : Nat) : State :=
  match encodedOfTableWord nbits w with
  | .ok e => s.present (edgeOfEncoded e)
  | .error _ => s

end Sys2Proof.Machine
end

