-- ==== Sys2Proof/Machine/Session.lean ====
section
/-!
DEFINITION. The session protocol, its keystream, and the host's byte contract (42_session_protocol.md R80 to R95), with
the pseudo-instructions it is written in (30_encoding.md R48). The block does not sequence itself (R90): all of this is
what a host presents and computes.
-/

namespace Sys2Proof.Session

open Sys2Proof.Machine

/-- The key bits in feed order, `K[0]` first (20_memory.md R31). -/
def keyFeed (k : SessionKey) : List Bool := (List.range Config.keyBits).map k.getLsbD

/-- The frame-counter bits in feed order, `F[0]` first (20_memory.md R32). -/
def frameFeed (f : FrameCounter) : List Bool := (List.range Config.frameBits).map f.getLsbD

/-- The host keeps the low 64 bits of a larger integer (R92). -/
def hostKey (k : Nat) : SessionKey := BitVec.ofNat 64 k

/-- The host keeps the low 22 bits of a larger integer (R92). -/
def hostFrame (f : Nat) : FrameCounter := BitVec.ofNat 22 f

/-- The pseudo-instructions (30_encoding.md R48). -/
inductive Pseudo where
  | idle (n : Nat)
  | loadK (k : SessionKey)
  | loadF (f : FrameCounter)
  | warmup
  | init (k : SessionKey) (f : FrameCounter)
  /-- Needs `COMPAT_R3_OVERWRITE = 1`. -/
  | initC (k : SessionKey) (f : FrameCounter)
  | genN (n : Nat)
  | genByte
deriving DecidableEq, Repr

/-- `LOADK k` and `LOADF f` (R48). -/
def loads (bits : List Bool) : List Instr := bits.map Instr.load

/-- `WARMUP` (R48, 42_session_protocol.md R85). -/
def warmups : List Instr := List.replicate Config.warmupRounds .warm

/-- The exact expansions (R48). -/
def expand : Pseudo → List Instr
  | .idle n => List.replicate n .nop
  | .loadK k => loads (keyFeed k)
  | .loadF f => loads (frameFeed f)
  | .warmup => warmups
  | .init k f => .clr :: (loads (keyFeed k) ++ loads (frameFeed f) ++ warmups)
  | .initC k f => .clr :: (loads (keyFeed k) ++ loads (frameFeed f) ++ [.ldr3c] ++ warmups)
  | .genN n => List.replicate n .gen
  | .genByte => List.replicate 8 .gen

/-- The command words of an expansion, in issue order (30_encoding.md R49). -/
def words (p : Pseudo) : List CmdWord := (expand p).filterMap commandWord?

/-- The two variants of a session (R84): the default one, or the compatibility one with the overwrite. -/
inductive Variant where
  | default
  | compat
deriving DecidableEq, Repr

/-- The initialisation of a variant: `INIT` or `INITC` (R80, R84). -/
def initOf : Variant → SessionKey → FrameCounter → Pseudo
  | .default, k, f => .init k f
  | .compat, k, f => .initC k f

/-- The commands of a session that takes `n` keystream bits (R80). -/
def session (v : Variant) (k : SessionKey) (f : FrameCounter) (n : Nat) : List Instr :=
  expand (initOf v k f) ++ expand (.genN n)

/-- A variant can be chosen in a build: the compatibility variant needs `COMPAT_R3_OVERWRITE = 1` (R84). -/
def Variant.available : Variant → Build → Bool
  | .default, _ => true
  | .compat, b => b.compatR3Overwrite

/-- The edges at which the host presents commands, one per edge, with `rst = 0`. -/
def edges (is : List Instr) : List Edge := is.map edgeOfInstr

/-! The keystream function (R87), on the three registers alone. -/

/-- `S = (R1, R2, R3)` (R87). -/
structure Regs where
  r1 : R1Bits
  r2 : R2Bits
  r3 : R3Bits
deriving DecidableEq, Repr

/-- `A0`, all zero (R81, R87). -/
def Regs.zero : Regs := ⟨0#19, 0#22, 0#23⟩

/-- `U(S, b)`: one `LOAD b` (R71, R87). -/
def Regs.mix (s : Regs) (b : Bool) : Regs :=
  ⟨shiftU Config.r1.taps s.r1 b, shiftU Config.r2.taps s.r2 b, shiftU Config.r3.taps s.r3 b⟩

/-- The majority of the clocking bits (R64). -/
def Regs.maj (s : Regs) : Bool :=
  majority (clockBit Config.r1.ci s.r1) (clockBit Config.r2.ci s.r2) (clockBit Config.r3.ci s.r3)

/-- `G(S)`: one majority-gated round (R72, R73, R87). -/
def Regs.round (s : Regs) : Regs :=
  ⟨shiftG Config.r1.ci Config.r1.taps s.r1 s.maj, shiftG Config.r2.ci Config.r2.taps s.r2 s.maj,
   shiftG Config.r3.ci Config.r3.taps s.r3 s.maj⟩

/-- `out(S)` (R66, R87). -/
def Regs.out (s : Regs) : Bool := (outBit s.r1 ^^ outBit s.r2) ^^ outBit s.r3

/-- Feeding bits, the first of the list first. -/
def mixAll (s : Regs) (bits : List Bool) : Regs := bits.foldl Regs.mix s

/-- `n` rounds. -/
def rounds : Nat → Regs → Regs
  | 0, s => s
  | n + 1, s => rounds n s.round

/-- `B22`: the registers after mixing the key and the frame counter (R82, R83, R87). -/
def mixed (k : SessionKey) (f : FrameCounter) : Regs := mixAll (mixAll Regs.zero (keyFeed k)) (frameFeed f)

/-- `W0` (R87): in the compatibility variant R3 is overwritten. -/
def warmStart (v : Variant) (overwrite : R3Bits) (k : SessionKey) (f : FrameCounter) : Regs :=
  match v with
  | .default => mixed k f
  | .compat => { mixed k f with r3 := overwrite }

/-- `P0 = W100` (R85, R87). -/
def produced (v : Variant) (overwrite : R3Bits) (k : SessionKey) (f : FrameCounter) : Regs :=
  rounds Config.warmupRounds (warmStart v overwrite k f)

/-- The keystream bit `z[n] = out(P(n+1))` of `Z(K, F)` (20_memory.md R33, R87). -/
def keystream (v : Variant) (overwrite : R3Bits) (k : SessionKey) (f : FrameCounter) (n : Nat) : Bool :=
  (rounds (n + 1) (produced v overwrite k f)).out

/-! The host byte contract (R93 to R95), outside the block (00_scope.md R4). -/

/-- Keystream byte `j`: `z[8j]` in bit 7, down to `z[8j+7]` in bit 0 (R93, 20_memory.md R34). -/
def keystreamByte (z : Nat → Bool) (j : Nat) : Byte :=
  (List.range 8).foldl (fun acc t => acc.shiftConcat (z (8 * j + t))) 0#8

/-- The host's output for the data bytes from index `j` on (R93). -/
def combineFrom (z : Nat → Bool) : Nat → List Byte → List Byte
  | _, [] => []
  | j, m :: ms => (m ^^^ keystreamByte z j) :: combineFrom z (j + 1) ms

/-- The host's output `C` for the data `M` (R93). -/
def combine (z : Nat → Bool) (m : List Byte) : List Byte := combineFrom z 0 m

/-- The commands a host issues for a session that combines `n` data bytes: 8 `GEN`s a byte (R93), none for no data
(R95). -/
def byteSession (v : Variant) (k : SessionKey) (f : FrameCounter) (n : Nat) : List Instr := session v k f (8 * n)

end Sys2Proof.Session
end

