-- ==== Sys2Proof/Machine/Assembler.lean ====
section
/-!
DEFINITION. The assembler syntax (30_encoding.md R47) with the pseudo-instructions of R48, and the listing form (R49).
A line of text is a list of characters; a program is a list of lines.
-/

namespace Sys2Proof.Assembler

open Sys2Proof.Session

/-- Why a line is no line of the assembler. -/
inductive Problem where
  /-- No mnemonic of R47 or R48, or one with the wrong number of operands. -/
  | unknownLine
  /-- An operand is no literal of the form or range it must have. -/
  | badOperand
  /-- `INITC` in a build without the compatibility mode (R48). -/
  | needsCompat
deriving DecidableEq, Repr

/-- A `;` starts a comment that runs to the end of the line (R47). -/
def stripComment : List Char → List Char
  | [] => []
  | c :: cs => if c = ';' then [] else c :: stripComment cs

/-- Blanks, and the comma that R48 writes between two operands, separate tokens. -/
def isSeparator (c : Char) : Bool := c == ' ' || c == '\t' || c == ','

/-- A token that is complete, if there is one. -/
def flush (token : List Char) : List (List Char) := if token.isEmpty then [] else [token]

/-- The tokens of a line; `token` is the one being read. -/
def tokensFrom (token : List Char) : List Char → List (List Char)
  | [] => flush token
  | c :: cs => if isSeparator c then flush token ++ tokensFrom [] cs else tokensFrom (token ++ [c]) cs

/-- The tokens of a line in lower case: mnemonics are case-insensitive (R47). DESIGN CHOICE (log entry 15): the whole line
is lower-cased, so the directive `.word`, the `0x` prefix and hex digits are case-insensitive too, of which R47 says
nothing. -/
def tokens (line : List Char) : List (List Char) := tokensFrom [] ((stripComment line).map Char.toLower)

/-- The value of a lower-case hex digit. -/
def hexVal (c : Char) : Option Nat :=
  if '0' ≤ c ∧ c ≤ '9' then some (c.toNat - '0'.toNat)
  else if 'a' ≤ c ∧ c ≤ 'f' then some (c.toNat - 'a'.toNat + 10)
  else none

/-- The digits of a number in a base, most significant first. -/
def digitsVal (base acc : Nat) : List Char → Option Nat
  | [] => some acc
  | c :: cs =>
    match hexVal c with
    | some d => if d < base then digitsVal base (acc * base + d) cs else none
    | none => none

/-- A number: `0x` and hex digits, or decimal digits. -/
def number : List Char → Option Nat
  | [] => none
  | ['0', 'x'] => none
  | '0' :: 'x' :: ds => digitsVal 16 0 ds
  | ds => digitsVal 10 0 ds

/-- A number below a bound. -/
def numberBelow (bound : Nat) (t : List Char) : Except Problem Nat :=
  match number t with
  | some n => if n < bound then .ok n else .error .badOperand
  | none => .error .badOperand

/-- The words of one instruction or pseudo-instruction. -/
def emit (p : Pseudo) : Except Problem (List CmdWord) := .ok (words p)

/-- A line with a mnemonic alone. -/
def assembleBare (m : List Char) : Except Problem (List CmdWord) :=
  if m = ['n', 'o', 'p'] then .ok [cmdWord 0b000#3 false]
  else if m = ['c', 'l', 'r'] then .ok [cmdWord 0b001#3 false]
  else if m = ['w', 'a', 'r', 'm'] then .ok [cmdWord 0b011#3 false]
  else if m = ['g', 'e', 'n'] then .ok [cmdWord 0b100#3 false]
  else if m = ['l', 'd', 'r', '3', 'c'] then .ok [cmdWord 0b101#3 false]
  else if m = ['w', 'a', 'r', 'm', 'u', 'p'] then emit .warmup
  else if m = ['g', 'e', 'n', 'b', 'y', 't', 'e'] then emit .genByte
  else .error .unknownLine

/-- The operand of `LOAD`: the literal `0` or `1` (R47). -/
def assembleLoad : List Char → Except Problem (List CmdWord)
  | ['0'] => .ok [cmdWord 0b010#3 false]
  | ['1'] => .ok [cmdWord 0b010#3 true]
  | _ => .error .badOperand

/-- The operand of `.word`: `0x` and one hex digit, a raw word, reserved or not (R47). -/
def assembleWord : List Char → Except Problem (List CmdWord)
  | ['0', 'x', d] =>
    match hexVal d with
    | some n => .ok [BitVec.ofNat 4 n]
    | none => .error .badOperand
  | _ => .error .badOperand

/-- A line with one operand. -/
def assembleUnary (m a : List Char) : Except Problem (List CmdWord) :=
  if m = ['l', 'o', 'a', 'd'] then assembleLoad a
  else if m = ['.', 'w', 'o', 'r', 'd'] then assembleWord a
  else if m = ['i', 'd', 'l', 'e'] then
    match number a with
    | some n => emit (.idle n)
    | none => .error .badOperand
  else if m = ['g', 'e', 'n', 'n'] then
    match number a with
    | some n => emit (.genN n)
    | none => .error .badOperand
  else if m = ['l', 'o', 'a', 'd', 'k'] then do emit (.loadK (hostKey (← numberBelow (2 ^ 64) a)))
  else if m = ['l', 'o', 'a', 'd', 'f'] then do emit (.loadF (hostFrame (← numberBelow (2 ^ 22) a)))
  else .error .unknownLine

/-- A line with two operands. -/
def assembleBinary (compat : Bool) (m a b : List Char) : Except Problem (List CmdWord) :=
  if m = ['i', 'n', 'i', 't'] then do
    emit (.init (hostKey (← numberBelow (2 ^ 64) a)) (hostFrame (← numberBelow (2 ^ 22) b)))
  else if m = ['i', 'n', 'i', 't', 'c'] then
    if compat then do
      emit (.initC (hostKey (← numberBelow (2 ^ 64) a)) (hostFrame (← numberBelow (2 ^ 22) b)))
    else .error .needsCompat
  else .error .unknownLine

/-- The words of one line: at most one command or pseudo-instruction (R47, R48). -/
def assembleLine (compat : Bool) (line : List Char) : Except Problem (List CmdWord) :=
  match tokens line with
  | [] => .ok []
  | [m] => assembleBare m
  | [m, a] => assembleUnary m a
  | [m, a, b] => assembleBinary compat m a b
  | _ => .error .unknownLine

/-- The words of a program, in issue order. -/
def assemble (compat : Bool) : List (List Char) → Except Problem (List CmdWord)
  | [] => .ok []
  | line :: rest =>
    match assembleLine compat line with
    | .error e => .error e
    | .ok ws =>
      match assemble compat rest with
      | .error e => .error e
      | .ok more => .ok (ws ++ more)

/-- The hex digit of a word, in upper case as the spec's listings write it (95_test_vectors.md P3; log entry 19). -/
def hexDigit (w : CmdWord) : Char := Char.ofNat (if w.toNat < 10 then '0'.toNat + w.toNat else 'A'.toNat + (w.toNat - 10))

/-- The listing form of a program: one hex digit per command, in issue order (R49). DESIGN CHOICE (log entry 19): no
blanks stand between the digits, of which R49 says nothing. -/
def listing (ws : List CmdWord) : List Char := ws.map hexDigit

/-- The words of a listing; `none` where a character is no hex digit. DESIGN CHOICE (log entry 19): a listing with blanks
between its digits is rejected, and a digit may be written in either case. -/
def readListing : List Char → Option (List CmdWord)
  | [] => some []
  | c :: cs =>
    match hexVal c.toLower, readListing cs with
    | some d, some ws => some (BitVec.ofNat 4 d :: ws)
    | _, _ => none

/-- The line that names a word: its mnemonic where an assembler emits that word for one (`din = 0` where `din` is ignored,
R43), and the raw `.word` for the other legal and the reserved words. -/
def lineOf (compat : Bool) (w : CmdWord) : List Char :=
  if w = cmdWord 0b000#3 false then ['N', 'O', 'P']
  else if w = cmdWord 0b001#3 false then ['C', 'L', 'R']
  else if w = cmdWord 0b010#3 false then ['L', 'O', 'A', 'D', ' ', '0']
  else if w = cmdWord 0b010#3 true then ['L', 'O', 'A', 'D', ' ', '1']
  else if w = cmdWord 0b011#3 false then ['W', 'A', 'R', 'M']
  else if w = cmdWord 0b100#3 false then ['G', 'E', 'N']
  else if compat && w == cmdWord 0b101#3 false then ['L', 'D', 'R', '3', 'C']
  else ['.', 'w', 'o', 'r', 'd', ' ', '0', 'x', hexDigit w]

end Sys2Proof.Assembler
end

