-- ==== Sys2Proof/Machine/Control.lean ====
section
/-!
DEFINITION. The hardware's own view of a command (41_keystream_core.md R63, R67): the control vectors with which the
command decoder drives the three primitive instances, and what an instance does with one at an edge
(40_shift_register.md R53). The meanings in Commands.lean follow the commands' own pseudocode instead; that the two
agree is stated in the certificates.
-/

namespace Sys2Proof.Machine

/-- The signals `{clr, ld, en, mode, ib}` of one instance (30_encoding.md R46). -/
structure Control where
  clr  : Bool
  ld   : Bool
  en   : Bool
  mode : Bool
  ib   : Bool
deriving DecidableEq, Repr

/-- One edge of a primitive (R53): `rst` over `clr` over `ld` over `en`. -/
def primEdge {n : Nat} (p : Params) (rst : Bool) (c : Control) (ldVal q : BitVec n) : BitVec n :=
  if rst then 0#n
  else if c.clr then 0#n
  else if c.ld then ldVal
  else if !c.en then q
  else if !c.mode then shiftU p.taps q c.ib
  else shiftG p.ci p.taps q c.ib

/-- A row's entry for one instance, with `none` for a don't-care `x`: the entry stands for every control vector that
agrees with it where it says something. -/
structure ControlPattern where
  clr  : Option Bool
  ld   : Option Bool
  en   : Option Bool
  mode : Option Bool
  ib   : Option Bool
deriving DecidableEq, Repr

/-- A signal agrees with an entry. -/
def agrees : Option Bool → Bool → Bool
  | none, _ => true
  | some x, b => x == b

/-- A control vector agrees with an entry. -/
def ControlPattern.admits (p : ControlPattern) (c : Control) : Bool :=
  agrees p.clr c.clr && agrees p.ld c.ld && agrees p.en c.en && agrees p.mode c.mode && agrees p.ib c.ib

/-- `0,0,0,x,x` (R67). -/
def ControlPattern.hold : ControlPattern := ⟨some false, some false, some false, none, none⟩
/-- `1,x,x,x,x` (R67). -/
def ControlPattern.clear : ControlPattern := ⟨some true, none, none, none, none⟩
/-- `0,1,x,x,x` (R67). -/
def ControlPattern.parallelLoad : ControlPattern := ⟨some false, some true, none, none, none⟩
/-- `0,0,1,mode,ib` (R67). -/
def ControlPattern.clock (mode ib : Bool) : ControlPattern :=
  ⟨some false, some false, some true, some mode, some ib⟩

/-- One row of R67's table. -/
structure ControlRow where
  r1     : ControlPattern
  r2     : ControlPattern
  r3     : ControlPattern
  /-- The value written to `KSV`. -/
  ksv    : Bool
  /-- `ERR` is set; otherwise it holds. -/
  setErr : Bool
deriving DecidableEq, Repr

/-- A row in which all three instances get the same entry. -/
def ControlRow.all (p : ControlPattern) (ksv setErr : Bool) : ControlRow := ⟨p, p, p, ksv, setErr⟩

/-- R67's table, with `maj` of the state before the edge; `none` for what is no command of the core. -/
def controlRow (maj : Bool) : Instr → Option ControlRow
  | .nop => some (.all .hold false false)
  | .clr => some (.all .clear false false)
  | .load b => some (.all (.clock false b) false false)
  | .warm => some (.all (.clock true maj) false false)
  | .gen => some (.all (.clock true maj) true false)
  | .ldr3c => some ⟨.hold, .hold, .parallelLoad, false, false⟩
  | .reserved101 => some (.all .hold false true)
  | .reserved110 => some (.all .hold false true)
  | .reserved111 => some (.all .hold false true)
  | .pClear => none
  | .pLoad _ => none
  | .pHold => none
  | .pShiftU _ => none
  | .pShiftG _ => none

/-- The core after one edge with `rst = 0`, its three instances driven by three control vectors (R63): the `ld` input of
R1 and R2 is tied to 0, and the `ld_val` input of R3 to `R3_OVERWRITE_VALUE`. -/
def State.driven (c1 c2 c3 : Control) (ksv setErr : Bool) (s : State) : State :=
  { s with
    r1  := primEdge Config.r1 false { c1 with ld := false } 0#19 s.r1
    r2  := primEdge Config.r2 false { c2 with ld := false } 0#22 s.r2
    r3  := primEdge Config.r3 false c3 s.build.r3OverwriteValue s.r3
    ksv := ksv
    err := s.err || setErr }

end Sys2Proof.Machine
end

