-- ==== Sys2Proof/Safety.lean ====
section
/-!
DEFINITION. What counts as a safe run, in the terms the statements use. A reserved command is the core's only fault; the
hardware records it in ERR until reset and goes on (60_exceptions.md R96 to R98), so a fault is a property of the state
here and no stop of the machine.
-/

namespace Sys2Proof.Machine

/-- A reserved command was executed since the last reset (60_exceptions.md R97). -/
def State.faulted (s : State) : Bool := s.err

/-- The keystream bit that a host may read: `ks` while `ksv = 1` (10_state.md R21, 70_reset_and_hazards.md R116). -/
def State.keystreamBit? (s : State) : Option Bool := if s.ksv then some s.ks else none

/-- An edge resets the core. -/
def Edge.resetsCore : Edge → Bool
  | .core p => p.rst
  | .prim _ => false

/-- An edge makes the core execute a reserved command (30_encoding.md R44). -/
def Edge.runsReserved (compat : Bool) : Edge → Bool
  | .core p => !p.rst && (decodeCmd compat p.word).isReserved
  | .prim _ => false

/-- An edge makes the core execute `NOP` (R69). -/
def Edge.runsNop (compat : Bool) : Edge → Bool
  | .core p => !p.rst && decodeCmd compat p.word == .nop
  | .prim _ => false

/-- No fault is recorded and none is to come: every command the host will present is one the core has. -/
def State.FaultFree (s : State) : Prop :=
  s.err = false ∧ ∀ e ∈ s.inputs, e.runsReserved s.build.compatR3Overwrite = false

/-- The three registers of the core, as the keystream function takes them (42_session_protocol.md R87). -/
def State.regs (s : State) : Session.Regs := ⟨s.r1, s.r2, s.r3⟩

end Sys2Proof.Machine
end

