-- ==== Sys2Proof/Certificates/Slice0/Obligations.lean ====
section
/-!
DEFINITION. The statements for the provers. Where a statement says what a register becomes, it says so bit by bit, from
the spec's words, and not through the functions the meanings are made of.
-/

open Sys2Proof Sys2Proof.Machine Sys2Proof.Session

namespace Sys2Proof.Claims

/-- `new` is `shift(old, b)` bit by bit: `b` at index 0, and every bit moved up one index (40_shift_register.md R55). -/
def Shifted {n : Nat} (old new : BitVec n) (b : Bool) : Prop :=
  ∀ i, i < n → new.getLsbD i = if i = 0 then b else old.getLsbD (i - 1)

/-- The parity of the tap bits: whether an odd number of them is 1 (R54). -/
def tapParity {n : Nat} (taps : List Nat) (q : BitVec n) : Bool :=
  decide ((taps.countP fun t => q.getLsbD t) % 2 = 1)

/-- `fb1` as the spec writes it out (R54). -/
def fb1 (q : R1Bits) : Bool := q.getLsbD 13 ^^ q.getLsbD 16 ^^ q.getLsbD 17 ^^ q.getLsbD 18
/-- `fb2` as the spec writes it out (R54). -/
def fb2 (q : R2Bits) : Bool := q.getLsbD 20 ^^ q.getLsbD 21
/-- `fb3` as the spec writes it out (R54). -/
def fb3 (q : R3Bits) : Bool := q.getLsbD 7 ^^ q.getLsbD 20 ^^ q.getLsbD 21 ^^ q.getLsbD 22

/-- The majority of the three clocking bits, in the two-of-three form (41_keystream_core.md R64). -/
def majOf (s : State) : Bool :=
  (s.r1.getLsbD 8 && s.r2.getLsbD 10) || (s.r1.getLsbD 8 && s.r3.getLsbD 10) || (s.r2.getLsbD 10 && s.r3.getLsbD 10)

/-- A majority-gated round of all three registers, from `s` to `t` (R72). -/
def GatedRound (s t : State) : Prop :=
  (if s.r1.getLsbD 8 = majOf s then Shifted s.r1 t.r1 (fb1 s.r1) else t.r1 = s.r1) ∧
  (if s.r2.getLsbD 10 = majOf s then Shifted s.r2 t.r2 (fb2 s.r2) else t.r2 = s.r2) ∧
  (if s.r3.getLsbD 10 = majOf s then Shifted s.r3 t.r3 (fb3 s.r3) else t.r3 = s.r3)

/-- The core's part of the state is the same. -/
def SameCore (s t : State) : Prop :=
  t.r1 = s.r1 ∧ t.r2 = s.r2 ∧ t.r3 = s.r3 ∧ t.ksv = s.ksv ∧ t.err = s.err

/-- The three registers are the same. -/
def SameRegs (s t : State) : Prop := t.r1 = s.r1 ∧ t.r2 = s.r2 ∧ t.r3 = s.r3

/-- Everything outside the core is the same: the build, the stand-alone primitive, and the inputs to come. -/
def SameOutside (s t : State) : Prop := t.build = s.build ∧ t.prim = s.prim ∧ t.inputs = s.inputs

/-- All three registers are zero. -/
def ZeroRegs (s : State) : Prop := s.r1 = 0#19 ∧ s.r2 = 0#22 ∧ s.r3 = 0#23

/-- The machine with another value in the stand-alone primitive's register. -/
def withQ (s : State) (q : BitVec s.prim.params.len) : State := { s with prim := { s.prim with q := q } }

/-- The machine with other inputs to come. -/
def withInputs (s : State) (es : List Edge) : State := { s with inputs := es }

/-- The edges at which a core's ports carry these values. -/
def coreEdges (ps : List CorePorts) : List Edge := ps.map Edge.core

/-- Without the edges that run `NOP`. -/
def dropNops (compat : Bool) (es : List Edge) : List Edge := es.filter fun e => !e.runsNop compat

/-- An edge of the second list is the same edge, or a `NOP` in the place of a reserved command. -/
def NopForReserved (compat : Bool) (e e' : Edge) : Prop :=
  e' = e ∨ (e.runsReserved compat = true ∧ e'.runsNop compat = true)

end Sys2Proof.Claims

open Sys2Proof.Claims

/-! ## Reset and the step -/

/-- 10_state.md R27. -/
def Obligations.ResetStateValues : Prop :=
  State.reset.r1 = 0#19 ∧ State.reset.r2 = 0#22 ∧ State.reset.r3 = 0#23 ∧
  State.reset.ksv = false ∧ State.reset.err = false

/-- 70_reset_and_hazards.md R109. The step at a reset edge, whatever `op` and `din`; and an edge after which ERR is 0
where it was 1 before is a reset of the core. -/
def Obligations.ResetEdgeClearsTheCore : Prop :=
  (∀ (s : State) (p : CorePorts), s.nextEdge = .core p → p.rst = true →
    step s = .next { s with r1 := 0#19, r2 := 0#22, r3 := 0#23, ksv := false, err := false, inputs := s.inputs.tail }) ∧
  (∀ s t : State, step s = .next t → s.err = true → t.err = false → ∃ p, s.nextEdge = .core p ∧ p.rst = true)

/-- 70_reset_and_hazards.md R110. -/
def Obligations.HeldResetKeepsResetValues : Prop :=
  ∀ (ps : List CorePorts) (s : State) (rest : List Edge), ps ≠ [] → (∀ p ∈ ps, p.rst = true) →
    s.inputs = coreEdges ps ++ rest →
    ∃ t, Host.Core.run core ps.length s = .next t ∧ ZeroRegs t ∧ t.ksv = false ∧ t.err = false ∧
      t.build = s.build ∧ t.prim = s.prim ∧ t.inputs = rest ∧
      ∀ (p : CorePorts) (more : List Edge), rest = .core p :: more → p.rst = false →
        step t = exec (decodeCmd t.build.compatR3Overwrite (cmdWord p.op p.din)) { t with inputs := more }

/-- 60_exceptions.md R100, 70_reset_and_hazards.md R108, 30_encoding.md R40: what a step is for each kind of edge; for an
edge of the primitive 30_encoding.md R46 and 40_shift_register.md R53. That an edge of the stand-alone primitive is a step
of its own is the model's choice (log entries 1 and 11). With no edge listed the host is idle and presents `NOP` (log
entry 3). -/
def Obligations.StepRunsTheDecodedInstruction : Prop :=
  ∀ (s : State) (es : List Edge),
    (∀ p : CorePorts, s.inputs = .core p :: es → p.rst = false →
      step s = exec (decodeCmd s.build.compatR3Overwrite (cmdWord p.op p.din)) { s with inputs := es }) ∧
    (∀ p : CorePorts, s.inputs = .core p :: es → p.rst = true →
      step s = .next (State.resetCore { s with inputs := es })) ∧
    (∀ p : PrimPorts, s.inputs = .prim p :: es → p.rst = false →
      step s = exec (decodeCtrl (ctrlVec p.clr p.ld p.en p.mode p.ib) p.ldVal) { s with inputs := es }) ∧
    (∀ p : PrimPorts, s.inputs = .prim p :: es → p.rst = true →
      step s = .next (State.resetPrim { s with inputs := es })) ∧
    (s.inputs = [] → step s = exec .nop s)

/-- An instruction of the build, presented by its encoding, is what the next step runs. -/
def Obligations.PresentedInstructionRuns : Prop :=
  ∀ (i : Instr) (s : State), i.inBuild s.build.compatR3Overwrite = true → step (s.present (edgeOfInstr i)) = exec i s

/-- A word of the opcode table, placed with `withFetchWord`, is what the next step of the default build runs. -/
def Obligations.FetchedWordRuns : Prop :=
  ∀ (s : State) (nbits w : Nat) (i : Instr), s.build.compatR3Overwrite = false → decodeTableWord nbits w = some i →
    step (s.withFetchWord nbits w) = exec i s

/-! ## Encoding -/

/-- 30_encoding.md R42: the sixteen command words of both builds. -/
def Obligations.OpcodeMapWords : Prop :=
  ∀ compat : Bool,
    decodeCmd compat 0x0#4 = .nop ∧ decodeCmd compat 0x1#4 = .nop ∧
    decodeCmd compat 0x2#4 = .clr ∧ decodeCmd compat 0x3#4 = .clr ∧
    decodeCmd compat 0x4#4 = .load false ∧ decodeCmd compat 0x5#4 = .load true ∧
    decodeCmd compat 0x6#4 = .warm ∧ decodeCmd compat 0x7#4 = .warm ∧
    decodeCmd compat 0x8#4 = .gen ∧ decodeCmd compat 0x9#4 = .gen ∧
    decodeCmd true 0xA#4 = .ldr3c ∧ decodeCmd true 0xB#4 = .ldr3c ∧
    decodeCmd false 0xA#4 = .reserved101 ∧ decodeCmd false 0xB#4 = .reserved101 ∧
    decodeCmd compat 0xC#4 = .reserved110 ∧ decodeCmd compat 0xD#4 = .reserved110 ∧
    decodeCmd compat 0xE#4 = .reserved111 ∧ decodeCmd compat 0xF#4 = .reserved111

/-- 30_encoding.md R43: two edges that differ only in `din` do the same where `op` is not that of `LOAD`; the word with
`din = 1` is no reserved word unless the one with `din = 0` is; encoder and assembler emit `din = 0`. -/
def Obligations.DataBitIsIgnored : Prop :=
  (∀ (s : State) (es : List Edge) (rst din din' : Bool) (op : Opcode), op ≠ 0b010#3 →
    step (withInputs s (.core ⟨rst, op, din⟩ :: es)) = step (withInputs s (.core ⟨rst, op, din'⟩ :: es))) ∧
  (∀ (compat : Bool) (op : Opcode), op ≠ 0b010#3 →
    decodeCmd compat (cmdWord op true) = decodeCmd compat (cmdWord op false)) ∧
  (∀ (i : Instr) (cw : CmdWord), (∀ b, i ≠ .load b) → commandWord? i = some cw → cw.getLsbD 0 = false) ∧
  (∀ (m : List Char) (ws : List CmdWord), Assembler.assembleBare m = .ok ws → ∀ w ∈ ws, w.getLsbD 0 = false)

/-- 30_encoding.md §3: which words are reserved, that every other word is a command with a name of its own, and what a
reserved one does. That RESERVED_101 does the same in a state of the compatibility build, where R44 has no such command,
is the model's choice (log entry 13). -/
def Obligations.ReservedWords : Prop :=
  (∀ (compat : Bool) (op : Opcode) (din : Bool),
    ((decodeCmd compat (cmdWord op din)).isReserved = true ↔
      op = 0b110#3 ∨ op = 0b111#3 ∨ (op = 0b101#3 ∧ compat = false))) ∧
  (∀ cw : CmdWord, (decodeCmd false cw).isReserved = true ↔ 0xA ≤ cw.toNat) ∧
  (∀ (s : State) (compat : Bool) (cw : CmdWord), (decodeCmd compat cw).isReserved = true →
    exec (decodeCmd compat cw) s = .next { s with ksv := false, err := true })

/-- 30_encoding.md R46: the control-vector table, for all 32 vectors. -/
def Obligations.ControlVectorTable : Prop :=
  ∀ (clr ld en mode ib : Bool) (v : Nat),
    decodeCtrl (ctrlVec clr ld en mode ib) v =
      match clr, ld, en, mode with
      | true, _, _, _ => .pClear
      | false, true, _, _ => .pLoad v
      | false, false, false, _ => .pHold
      | false, false, true, false => .pShiftU ib
      | false, false, true, true => .pShiftG ib

/-- Decoding the encoding of an instruction of the build gives it back; everything that can be presented decodes to an
instruction of the build; and re-encoding loses nothing that decoding reads. -/
def Obligations.DecodeInvertsEncode : Prop :=
  (∀ (compat : Bool) (i : Instr), i.inBuild compat = true → decode compat (encode i) = i) ∧
  (∀ (compat : Bool) (e : Encoded), (decode compat e).inBuild compat = true ∧
    decode compat (encode (decode compat e)) = decode compat e)

/-! ## The commands -/

/-- 41_keystream_core.md R69, with any number of `NOP`s. -/
def Obligations.NopHoldsTheRegisters : Prop :=
  (∀ (compat din : Bool), decodeCmd compat (cmdWord 0b000#3 din) = .nop) ∧
  (∀ s : State, exec .nop s = .next { s with ksv := false }) ∧
  (∀ (n : Nat) (s : State) (rest : List Edge), s.inputs = List.replicate n (edgeOfInstr .nop) ++ rest →
    ∃ t, Host.Core.run core n s = .next t ∧ SameRegs s t ∧ t.err = s.err ∧ t.build = s.build ∧ t.prim = s.prim ∧
      t.inputs = rest)

/-- 41_keystream_core.md R70. -/
def Obligations.ClrZeroesTheRegisters : Prop :=
  (∀ (compat din : Bool), decodeCmd compat (cmdWord 0b001#3 din) = .clr) ∧
  (∀ s : State, exec .clr s = .next { s with r1 := 0#19, r2 := 0#22, r3 := 0#23, ksv := false })

/-- 41_keystream_core.md R71. -/
def Obligations.LoadShiftsEveryRegister : Prop :=
  (∀ (compat b : Bool), decodeCmd compat (cmdWord 0b010#3 b) = .load b) ∧
  (∀ (b : Bool) (s : State), ∃ t, exec (.load b) s = .next t ∧
    Shifted s.r1 t.r1 (fb1 s.r1 ^^ b) ∧ Shifted s.r2 t.r2 (fb2 s.r2 ^^ b) ∧ Shifted s.r3 t.r3 (fb3 s.r3 ^^ b) ∧
    t.ksv = false ∧ t.err = s.err ∧ SameOutside s t ∧
    (ZeroRegs s → b = false → ZeroRegs t))

/-- 41_keystream_core.md R72. -/
def Obligations.WarmIsAGatedRound : Prop :=
  (∀ (compat din : Bool), decodeCmd compat (cmdWord 0b011#3 din) = .warm) ∧
  (∀ s : State, ∃ t, exec .warm s = .next t ∧ GatedRound s t ∧
    t.ksv = false ∧ t.err = s.err ∧ SameOutside s t ∧
    t.ks = (t.r1.getLsbD 18 ^^ t.r2.getLsbD 21 ^^ t.r3.getLsbD 22) ∧
    (ZeroRegs s → ZeroRegs t))

/-- 41_keystream_core.md R73. The emitted bit is read from the state after the round. -/
def Obligations.GenEmitsAfterAGatedRound : Prop :=
  (∀ (compat din : Bool), decodeCmd compat (cmdWord 0b100#3 din) = .gen) ∧
  (∀ s : State, ∃ t, exec .gen s = .next t ∧ GatedRound s t ∧
    t.ksv = true ∧ t.err = s.err ∧ SameOutside s t ∧
    t.keystreamBit? = some (t.r1.getLsbD 18 ^^ t.r2.getLsbD 21 ^^ t.r3.getLsbD 22) ∧
    (ZeroRegs s → ZeroRegs t ∧ t.ks = false) ∧
    ∃ u, exec .warm s = .next u ∧ SameRegs u t)

/-- 41_keystream_core.md R74, for every value of `R3_OVERWRITE_VALUE` and in both builds. -/
def Obligations.Ldr3cOverwritesR3 : Prop :=
  (∀ din : Bool, decodeCmd true (cmdWord 0b101#3 din) = .ldr3c) ∧
  (∀ s : State, s.build.compatR3Overwrite = true →
    exec .ldr3c s = .next { s with r3 := s.build.r3OverwriteValue, ksv := false }) ∧
  (∀ s : State, s.build.compatR3Overwrite = false → exec .ldr3c s = .next { s with ksv := false, err := true })

/-- 41_keystream_core.md §2 (reserved command), and what comes after it runs as ever. That RESERVED_101 does the same in
a state of the compatibility build, where R75 has no such command, is the model's choice (log entry 13). -/
def Obligations.ReservedCommandSetsErr : Prop :=
  (∀ din : Bool, decodeCmd false (cmdWord 0b101#3 din) = .reserved101) ∧
  (∀ (compat din : Bool), decodeCmd compat (cmdWord 0b110#3 din) = .reserved110 ∧
    decodeCmd compat (cmdWord 0b111#3 din) = .reserved111) ∧
  (∀ (i : Instr) (s : State), i = .reserved101 ∨ i = .reserved110 ∨ i = .reserved111 →
    exec i s = .next { s with ksv := false, err := true }) ∧
  (∀ (i j : Instr) (s t : State) (es : List Edge), i.isReserved = true → i.inBuild s.build.compatR3Overwrite = true →
    j.inBuild s.build.compatR3Overwrite = true → s.inputs = edgeOfInstr i :: edgeOfInstr j :: es →
    step s = .next t → step t = exec j { s with ksv := false, err := true, inputs := es })

/-! ## The shift-register primitive, for every legal instance -/

/-- 40_shift_register.md R50. -/
def Obligations.IllegalInstancesAreNotBuilt : Prop :=
  ∀ p : Params,
    (p.problem = none ↔ 1 ≤ p.len ∧ p.ci < p.len ∧ (∀ t ∈ p.taps, t < p.len) ∧ p.taps.Nodup) ∧
    ((∃ q : Prim, q.params = p) ↔ 1 ≤ p.len ∧ p.ci < p.len ∧ (∀ t ∈ p.taps, t < p.len) ∧ p.taps.Nodup)

/-- 40_shift_register.md §1, at one edge of the stand-alone primitive: `rst` over `clr` over `ld` over `en`. That of a
number too wide for the `ld_val` port the low `LEN` bits are loaded is the model's choice (log entry 12). -/
def Obligations.PrimitiveEdgePriority : Prop :=
  ∀ (s : State) (p : PrimPorts), s.nextEdge = .prim p →
    ∃ q : BitVec s.prim.params.len, step s = .next { withQ s q with inputs := s.inputs.tail } ∧
      (p.rst = true → q = 0#_) ∧
      (p.rst = false → p.clr = true → q = 0#_) ∧
      (p.rst = false → p.clr = false → p.ld = true → q = BitVec.ofNat _ p.ldVal) ∧
      (p.rst = false → p.clr = false → p.ld = false → p.en = false → q = s.prim.q) ∧
      (p.rst = false → p.clr = false → p.ld = false → p.en = true → p.mode = false →
        Shifted s.prim.q q (tapParity s.prim.params.taps s.prim.q ^^ p.ib)) ∧
      (p.rst = false → p.clr = false → p.ld = false → p.en = true → p.mode = true →
        if s.prim.q.getLsbD s.prim.params.ci = p.ib
        then Shifted s.prim.q q (tapParity s.prim.params.taps s.prim.q) else q = s.prim.q)

/-- 40_shift_register.md R54. -/
def Obligations.FeedbackIsTheTapParity : Prop :=
  (∀ (n : Nat) (taps : List Nat) (q : BitVec n), feedback taps q = tapParity taps q) ∧
  (∀ (n : Nat) (q : BitVec n), feedback [] q = false) ∧
  (∀ q : R1Bits, feedback Config.r1.taps q = fb1 q) ∧
  (∀ q : R2Bits, feedback Config.r2.taps q = fb2 q) ∧
  (∀ q : R3Bits, feedback Config.r3.taps q = fb3 q)

/-- 40_shift_register.md R55: the shift by indices, its form for length 1, and its numeric form. -/
def Obligations.ShiftMovesTowardTheTop : Prop :=
  (∀ (n : Nat) (q : BitVec n) (b : Bool), Shifted q (shift q b) b) ∧
  (∀ (q : BitVec 1) (b : Bool), shift q b = BitVec.ofBool b) ∧
  (∀ (n : Nat) (q : BitVec n) (b : Bool), 1 ≤ n → (shift q b).toNat = ((q.toNat <<< 1) % 2 ^ n) ||| b.toNat)

/-- 40_shift_register.md R56. -/
def Obligations.PHoldKeepsTheRegister : Prop :=
  (∀ (mode ib : Bool) (v : Nat), decodeCtrl (ctrlVec false false false mode ib) v = .pHold) ∧
  (∀ s : State, exec .pHold s = .next s)

/-- 40_shift_register.md R57. The shift does not ask the clocking bit. -/
def Obligations.PShiftuAlwaysShifts : Prop :=
  (∀ (b : Bool) (v : Nat), decodeCtrl (ctrlVec false false true false b) v = .pShiftU b) ∧
  (∀ (b : Bool) (s : State), ∃ q : BitVec s.prim.params.len, exec (.pShiftU b) s = .next (withQ s q) ∧
    Shifted s.prim.q q (tapParity s.prim.params.taps s.prim.q ^^ b) ∧
    (s.prim.q = 0#_ → b = false → q = 0#_) ∧
    (s.prim.params.taps = [] → Shifted s.prim.q q b))

/-- 40_shift_register.md R58. The input bit is not XORed into the feedback. -/
def Obligations.PShiftgShiftsOnAgreement : Prop :=
  (∀ (b : Bool) (v : Nat), decodeCtrl (ctrlVec false false true true b) v = .pShiftG b) ∧
  (∀ (b : Bool) (s : State), ∃ q : BitVec s.prim.params.len, exec (.pShiftG b) s = .next (withQ s q) ∧
    (s.prim.q.getLsbD s.prim.params.ci = b → Shifted s.prim.q q (tapParity s.prim.params.taps s.prim.q)) ∧
    (s.prim.q.getLsbD s.prim.params.ci ≠ b → q = s.prim.q) ∧
    (s.prim.q = 0#_ → q = 0#_))

/-- 40_shift_register.md R59. The `LEN` wires of the port carry the low `LEN` bits of the number. -/
def Obligations.PLoadTakesThePort : Prop :=
  (∀ (en mode ib : Bool) (v : Nat), decodeCtrl (ctrlVec false true en mode ib) v = .pLoad v) ∧
  (∀ (v : Nat) (s : State), ∃ q : BitVec s.prim.params.len, exec (.pLoad v) s = .next (withQ s q) ∧
    q.toNat = v % 2 ^ s.prim.params.len ∧ (v < 2 ^ s.prim.params.len → q.toNat = v))

/-- 40_shift_register.md R60. -/
def Obligations.PClearZeroesTheRegister : Prop :=
  (∀ (ld en mode ib : Bool) (v : Nat), decodeCtrl (ctrlVec true ld en mode ib) v = .pClear) ∧
  (∀ s : State, exec .pClear s = .next (withQ s 0#_))

/-- 40_shift_register.md §4, the laws of R62: (b) to (f) one conjunct each in that order; law (a), the width, is the type
of the register, `BitVec params.len`, with the parameters kept. -/
def Obligations.PrimitiveLaws : Prop :=
  ∀ (s : State),
    (exec .pHold s = .next s ∧ ∀ b, s.prim.q.getLsbD s.prim.params.ci ≠ b → exec (.pShiftG b) s = .next s) ∧
    (∀ (b : Bool) (t : State), exec (.pShiftU b) s = .next t → t.prim.params = s.prim.params ∧
      ∀ i, i + 1 < s.prim.params.len → t.prim.q.getLsbD (i + 1) = s.prim.q.getLsbD i) ∧
    (∀ (a b : Bool) (p q : BitVec s.prim.params.len), ∃ p' q' : BitVec s.prim.params.len,
      exec (.pShiftU a) (withQ s p) = .next (withQ s p') ∧ exec (.pShiftU b) (withQ s q) = .next (withQ s q') ∧
      exec (.pShiftU (a ^^ b)) (withQ s (p ^^^ q)) = .next (withQ s (p' ^^^ q'))) ∧
    (∀ b, s.prim.q.getLsbD s.prim.params.ci = b → exec (.pShiftG b) s = exec (.pShiftU false) s) ∧
    (s.prim.q = 0#_ → exec (.pShiftU false) s = .next s ∧ exec (.pShiftG false) s = .next s ∧
      exec (.pShiftG true) s = .next s)

/-! ## The datapath -/

/-- 41_keystream_core.md R64: the integer sum halved, the two-of-three form, and which registers agree with the majority
in each row of the truth table. -/
def Obligations.MajorityTruthTable : Prop :=
  (∀ c1 c2 c3 : Bool, majority c1 c2 c3 = ((c1 && c2) || (c1 && c3) || (c2 && c3)) ∧
    (majority c1 c2 c3).toNat = (c1.toNat + c2.toNat + c3.toNat) >>> 1 ∧
    (majority c1 c2 c3 = true ↔ 2 ≤ c1.toNat + c2.toNat + c3.toNat)) ∧
  (∀ s : State, s.maj = majority (s.r1.getLsbD 8) (s.r2.getLsbD 10) (s.r3.getLsbD 10)) ∧
  (∀ s : State, ∃ t, exec .warm s = .next t ∧
    (s.r1.getLsbD 8 = s.maj → Shifted s.r1 t.r1 (fb1 s.r1)) ∧ (s.r1.getLsbD 8 ≠ s.maj → t.r1 = s.r1) ∧
    (s.r2.getLsbD 10 = s.maj → Shifted s.r2 t.r2 (fb2 s.r2)) ∧ (s.r2.getLsbD 10 ≠ s.maj → t.r2 = s.r2) ∧
    (s.r3.getLsbD 10 = s.maj → Shifted s.r3 t.r3 (fb3 s.r3)) ∧ (s.r3.getLsbD 10 ≠ s.maj → t.r3 = s.r3))

/-- 41_keystream_core.md §1, its majority law, for `WARM` and `GEN`. -/
def Obligations.AtLeastTwoRegistersShift : Prop :=
  ∀ (i : Instr) (s : State), i = .warm ∨ i = .gen → ∃ t, exec i s = .next t ∧
    ((Shifted s.r1 t.r1 (fb1 s.r1) ∧ Shifted s.r2 t.r2 (fb2 s.r2)) ∨
     (Shifted s.r1 t.r1 (fb1 s.r1) ∧ Shifted s.r3 t.r3 (fb3 s.r3)) ∨
     (Shifted s.r2 t.r2 (fb2 s.r2) ∧ Shifted s.r3 t.r3 (fb3 s.r3))) ∧
    (s.r1.getLsbD 8 = s.r2.getLsbD 10 → s.r2.getLsbD 10 = s.r3.getLsbD 10 →
      Shifted s.r1 t.r1 (fb1 s.r1) ∧ Shifted s.r2 t.r2 (fb2 s.r2) ∧ Shifted s.r3 t.r3 (fb3 s.r3)) ∧
    (s.r1.getLsbD 8 ≠ s.r2.getLsbD 10 → s.r1.getLsbD 8 ≠ s.r3.getLsbD 10 → t.r1 = s.r1) ∧
    (s.r2.getLsbD 10 ≠ s.r1.getLsbD 8 → s.r2.getLsbD 10 ≠ s.r3.getLsbD 10 → t.r2 = s.r2) ∧
    (s.r3.getLsbD 10 ≠ s.r1.getLsbD 8 → s.r3.getLsbD 10 ≠ s.r2.getLsbD 10 → t.r3 = s.r3)

/-- 41_keystream_core.md R67, with R63's ties: whatever stands for the don't-cares, the three instances driven by a row's
control vectors do what the command does; every command of the core has a row; with `rst = 1` every instance is reset
and the command is discarded. -/
def Obligations.CommandsDriveThePrimitives : Prop :=
  (∀ (s : State) (i : Instr) (row : ControlRow) (c1 c2 c3 : Control), i.inBuild s.build.compatR3Overwrite = true →
    controlRow s.maj i = some row → row.r1.admits c1 = true → row.r2.admits c2 = true → row.r3.admits c3 = true →
    exec i s = .next (s.driven c1 c2 c3 row.ksv row.setErr)) ∧
  (∀ (m : Bool) (i : Instr), (controlRow m i).isSome = i.isCommand) ∧
  (∀ (s : State) (p : CorePorts) (es : List Edge) (c1 c2 c3 : Control) (v1 : R1Bits) (v2 : R2Bits) (v3 : R3Bits),
    p.rst = true → s.inputs = .core p :: es → step s = .next
      { s with
        r1 := primEdge Config.r1 true c1 v1 s.r1, r2 := primEdge Config.r2 true c2 v2 s.r2
        r3 := primEdge Config.r3 true c3 v3 s.r3, ksv := false, err := false, inputs := es })

/-- 41_keystream_core.md §1, simultaneous update: clocking the registers one after the other, with the majority computed
first, gives the same state. -/
def Obligations.SequentialClockingAgrees : Prop :=
  ∀ s : State,
    let m := s.maj
    let a : State := { s with r1 := shiftG Config.r1.ci Config.r1.taps s.r1 m }
    let b : State := { a with r2 := shiftG Config.r2.ci Config.r2.taps a.r2 m }
    let c : State := { b with r3 := shiftG Config.r3.ci Config.r3.taps b.r3 m }
    exec .warm s = .next { c with ksv := false } ∧ exec .gen s = .next { c with ksv := true }

/-- 10_state.md R19, R20; 41_keystream_core.md R66: the clocking bits, the output bits and the combiner; and with them
the output ports of R25 and of the primitive (40_shift_register.md R61). -/
def Obligations.OutputsReadTheState : Prop :=
  ∀ s : State,
    s.c1 = s.r1.getLsbD 8 ∧ s.c2 = s.r2.getLsbD 10 ∧ s.c3 = s.r3.getLsbD 10 ∧
    s.o1 = s.r1.getLsbD 18 ∧ s.o2 = s.r2.getLsbD 21 ∧ s.o3 = s.r3.getLsbD 22 ∧
    s.outputs = ⟨s.r1.getLsbD 18 ^^ s.r2.getLsbD 21 ^^ s.r3.getLsbD 22, s.ksv, s.err, s.r1, s.r2, s.r3⟩ ∧
    s.prim.qOut = s.prim.q ∧ s.prim.cbit = s.prim.q.getLsbD s.prim.params.ci ∧
    s.prim.obit = s.prim.q.getLsbD (s.prim.params.len - 1)

/-! ## The status bits and the error -/

/-- 10_state.md R21: after an edge of the core, KSV is 1 exactly if it ran `GEN`; then the output carries the bit that
`GEN` produced. -/
def Obligations.KsvMarksGen : Prop :=
  ∀ (s : State) (p : CorePorts), s.nextEdge = .core p → ∃ t, step s = .next t ∧
    (t.ksv = true ↔ p.rst = false ∧ decodeCmd s.build.compatR3Overwrite (cmdWord p.op p.din) = .gen) ∧
    (t.ksv = true → exec .gen s.takeEdge = .next t ∧
      t.outputs.ks = (t.r1.getLsbD 18 ^^ t.r2.getLsbD 21 ^^ t.r3.getLsbD 22))

/-- 10_state.md R22: a reserved command sets ERR, no command clears it, only reset does, and it stops nothing. -/
def Obligations.ErrIsSticky : Prop :=
  ∀ s : State, ∃ t, step s = .next t ∧
    (t.err = true ↔ s.nextEdge.resetsCore = false ∧
      (s.err = true ∨ s.nextEdge.runsReserved s.build.compatR3Overwrite = true))

/-- 60_exceptions.md R96: every instruction answers a next state, and only a reserved command raises ERR; `LDR3C` is
total in the compatibility build. -/
def Obligations.OnlyReservedCommandsRaiseErr : Prop :=
  ∀ (i : Instr) (s : State), i.inBuild s.build.compatR3Overwrite = true → ∃ t, exec i s = .next t ∧
    (i.isReserved = true → t.err = true) ∧ (i.isReserved = false → t.err = s.err)

/-- 60_exceptions.md R97: after any edges, ERR (which is the whole fault record) says whether a reserved command was
executed since the last reset, or was recorded before and not reset since. -/
def Obligations.ErrRecordsReservedSinceReset : Prop :=
  ∀ (es : List Edge) (s : State) (rest : List Edge), s.inputs = es ++ rest →
    ∃ t, Host.Core.run core es.length s = .next t ∧ t.inputs = rest ∧ t.faulted = t.err ∧
      (t.err = true ↔
        (∃ (before after : List Edge) (e : Edge), es = before ++ e :: after ∧
          e.runsReserved s.build.compatR3Overwrite = true ∧ ∀ x ∈ after, x.resetsCore = false) ∨
        (s.err = true ∧ ∀ x ∈ es, x.resetsCore = false))

/-- 60_exceptions.md R98: with `NOP`s in the place of reserved commands, the registers and KSV are the same after every
number of edges, and the core never stops. -/
def Obligations.ReservedCommandsActAsNops : Prop :=
  ∀ (es es' : List Edge) (s s' : State) (rest rest' : List Edge), s.build = s'.build → SameRegs s s' →
    s.ksv = s'.ksv → List.Forall₂ (NopForReserved s.build.compatR3Overwrite) es es' →
    s.inputs = es ++ rest → s'.inputs = es' ++ rest' →
    ∃ t t', Host.Core.run core es.length s = .next t ∧ Host.Core.run core es.length s' = .next t' ∧
      SameRegs t t' ∧ t.ksv = t'.ksv

/-- A machine whose host presents no reserved command, and that has recorded none, stays so at every step. -/
def Obligations.StepKeepsFaultFree : Prop :=
  ∀ s t : State, s.FaultFree → step s = .next t → t.FaultFree

/-- The invariant of StepKeepsFaultFree holds right after reset, and for every list of unreserved edges presented then. -/
def Obligations.ResetIsFaultFree : Prop :=
  State.reset.FaultFree ∧
  ∀ es : List Edge, (∀ e ∈ es, e.runsReserved false = false) → (withInputs State.reset es).FaultFree

/-! ## Rules about the whole machine -/

/-- 10_state.md §2 and, for the primitive's parameters, 40_shift_register.md §1 (R50, R51): no run writes the
configuration. Nor can a run stop: 60_exceptions.md §1 (R96, R98). -/
def Obligations.ConfigurationIsFixed : Prop :=
  ∀ (n : Nat) (s : State), ∃ t, Host.Core.run core n s = .next t ∧ t.build = s.build ∧
    t.prim.params = s.prim.params

/-- 10_state.md §8, for the core and the stand-alone primitive, two pieces of hardware of the model: an edge of one leaves
the other alone, and what the core does at an edge of its own is a function of its own state and inputs. -/
def Obligations.SeparateHardwareSharesNothing : Prop :=
  (∀ (s t : State) (p : PrimPorts), s.nextEdge = .prim p → step s = .next t → SameCore s t ∧ t.build = s.build) ∧
  (∀ (s t : State) (p : CorePorts), s.nextEdge = .core p → step s = .next t → t.prim = s.prim ∧ t.build = s.build) ∧
  (∀ (s s' : State) (p : CorePorts), s.nextEdge = .core p → s'.nextEdge = .core p → SameCore s s' →
    s'.build = s.build → ∃ t t', step s = .next t ∧ step s' = .next t' ∧ SameCore t t')

/-- 70_reset_and_hazards.md §3 (reading the keystream): after an edge that runs `NOP` the output `ks` shows the same bit
and is no keystream bit any more; the same is no keystream bit after any other edge of the core that is no `GEN`. -/
def Obligations.KsAfterNopIsNoKeystreamBit : Prop :=
  ∀ (s : State) (p : CorePorts), s.nextEdge = .core p → p.rst = false → ∃ t, step s = .next t ∧
    (decodeCmd s.build.compatR3Overwrite (cmdWord p.op p.din) = .nop → t.ks = s.ks ∧ t.keystreamBit? = none) ∧
    (decodeCmd s.build.compatR3Overwrite (cmdWord p.op p.din) ≠ .gen → t.keystreamBit? = none)

/-- 70_reset_and_hazards.md R111, from a power-up whose bits are all free: which bits a first `CLR`, a first reserved
command and a first reset make defined. -/
def Obligations.FirstEdgeAfterPowerOn : Prop :=
  ∀ (build : Build) (params : Params) (legal : params.problem = none) (n : Nat) (es : List Edge),
    let s := State.powerOn build params legal es n
    (∃ t, exec .clr s = .next t ∧ ZeroRegs t ∧ t.ksv = false ∧ t.err = Config.powerOnErr n) ∧
    (∃ t, exec .reserved110 s = .next t ∧ t.ksv = false ∧ t.err = true ∧ t.r1 = Config.powerOnR1 n) ∧
    (∀ (p : CorePorts) (rest : List Edge), es = .core p :: rest → p.rst = true → ∃ t, step s = .next t ∧
      ZeroRegs t ∧ t.ksv = false ∧ t.err = false ∧ t.inputs = rest)

/-- Zero registers stay zero, and `ks` 0, under every edge but a `LOAD 1` and an `LDR3C`; so the keystream of key 0 and
frame counter 0 is 0 for ever. -/
def Obligations.ZeroRegistersStayZero : Prop :=
  (∀ (s : State), ZeroRegs s →
    (∀ p, s.nextEdge = .core p → p.rst = false →
      decodeCmd s.build.compatR3Overwrite (cmdWord p.op p.din) ≠ .load true ∧
      decodeCmd s.build.compatR3Overwrite (cmdWord p.op p.din) ≠ .ldr3c) →
    ∃ t, step s = .next t ∧ ZeroRegs t ∧ t.ks = false) ∧
  (∀ (v : R3Bits) (n : Nat), keystream .default v 0#64 0#22 n = false)

/-! ## The session -/

/-- 42_session_protocol.md §1, §2: from every fault-free state of a build that has the variant, whatever its registers,
the session for a key and a frame counter yields the keystream of the spec's equations, for every number of bits. -/
def Obligations.SessionYieldsTheKeystream : Prop :=
  ∀ (v : Variant) (k : SessionKey) (f : FrameCounter) (n : Nat) (s : State) (rest : List Edge),
    v.available s.build = true → s.err = false → s.inputs = edges (session v k f (n + 1)) ++ rest →
    ∃ t, Host.Core.run core (edges (session v k f (n + 1))).length s = .next t ∧
      t.keystreamBit? = some (keystream v s.build.r3OverwriteValue k f n) ∧
      t.err = false ∧ t.build = s.build ∧ t.prim = s.prim ∧ t.inputs = rest

/-- 42_session_protocol.md R95: a session that combines no data issues no `GEN`, its registers are `W100`, its output is
empty. -/
def Obligations.EmptyDataLeavesTheWarmState : Prop :=
  (∀ (v : Variant) (k : SessionKey) (f : FrameCounter), Instr.gen ∉ byteSession v k f 0) ∧
  (∀ (v : Variant) (k : SessionKey) (f : FrameCounter) (s : State) (rest : List Edge), v.available s.build = true →
    s.inputs = edges (byteSession v k f 0) ++ rest →
    ∃ t, Host.Core.run core (edges (byteSession v k f 0)).length s = .next t ∧
      t.regs = produced v s.build.r3OverwriteValue k f ∧ t.ksv = false ∧ t.err = s.err) ∧
  (∀ z : Nat → Bool, combine z [] = [])

/-- 42_session_protocol.md §2 (pausing): two lists of edges that are the same but for the `NOP`s in them give the same
registers and the same ERR, from any two states that agree on the core and the build. -/
def Obligations.PausesChangeNoRegister : Prop :=
  ∀ (es es' : List Edge) (s s' : State) (rest rest' : List Edge), s'.build = s.build → SameRegs s s' →
    s'.err = s.err → dropNops s.build.compatR3Overwrite es = dropNops s.build.compatR3Overwrite es' →
    s.inputs = es ++ rest → s'.inputs = es' ++ rest' →
    ∃ t t', Host.Core.run core es.length s = .next t ∧ Host.Core.run core es'.length s' = .next t' ∧
      SameRegs t t' ∧ t'.err = t.err

/-- 42_session_protocol.md R91: after a `CLR` or a reset no register value carries over; ERR carries over a `CLR`. -/
def Obligations.NewSessionForgetsTheRegisters : Prop :=
  (∀ (s s' : State) (es : List Edge) (n : Nat), s'.build = s.build → s.inputs = edgeOfInstr .clr :: es →
    s'.inputs = edgeOfInstr .clr :: es → n ≤ es.length →
    ∃ t t', Host.Core.run core (n + 1) s = .next t ∧ Host.Core.run core (n + 1) s' = .next t' ∧
      SameRegs t t' ∧ t.ksv = t'.ksv) ∧
  (∀ (s s' : State) (p : CorePorts) (es : List Edge) (n : Nat), p.rst = true → s'.build = s.build →
    s.inputs = .core p :: es → s'.inputs = .core p :: es → n ≤ es.length →
    ∃ t t', Host.Core.run core (n + 1) s = .next t ∧ Host.Core.run core (n + 1) s' = .next t' ∧ SameCore t t') ∧
  (∀ s : State, ∃ t, exec .clr s = .next t ∧ t.err = s.err)

/-- The mixing phase is linear over GF(2) in key and frame counter together. -/
def Obligations.MixingIsLinear : Prop :=
  ∀ (k k' : SessionKey) (f f' : FrameCounter),
    (mixed (k ^^^ k') (f ^^^ f')).r1 = (mixed k f).r1 ^^^ (mixed k' f').r1 ∧
    (mixed (k ^^^ k') (f ^^^ f')).r2 = (mixed k f).r2 ^^^ (mixed k' f').r2 ∧
    (mixed (k ^^^ k') (f ^^^ f')).r3 = (mixed k f).r3 ^^^ (mixed k' f').r3

/-- 42_session_protocol.md R92: the host keeps the low 64 and 22 bits of larger integers, and presents exactly 64 and 22
bits, the least significant first. -/
def Obligations.HostPresentsTheLowBits : Prop :=
  ∀ k f : Nat,
    (hostKey k).toNat = k % 2 ^ 64 ∧ (hostFrame f).toNat = f % 2 ^ 22 ∧
    (keyFeed (hostKey k)).length = 64 ∧ (frameFeed (hostFrame f)).length = 22 ∧
    (∀ j, j < 64 → (keyFeed (hostKey k))[j]? = some (k.testBit j)) ∧
    (∀ j, j < 22 → (frameFeed (hostFrame f))[j]? = some (f.testBit j))

/-- 42_session_protocol.md R93, with the bit order of 20_memory.md R34. -/
def Obligations.HostByteContract : Prop :=
  (∀ (z : Nat → Bool) (m : List Byte), (combine z m).length = m.length ∧
    ∀ (j : Nat) (hj : j < m.length) (hc : j < (combine z m).length) (t : Nat), t < 8 →
      ((combine z m)[j]).getLsbD (7 - t) = ((m[j]).getLsbD (7 - t) ^^ z (8 * j + t))) ∧
  (∀ (v : Variant) (k : SessionKey) (f : FrameCounter) (n : Nat), (byteSession v k f n).count .gen = 8 * n)

/-- 42_session_protocol.md §4 (involution). -/
def Obligations.CombiningTwiceGivesTheData : Prop :=
  ∀ (v : Variant) (overwrite : R3Bits) (k : SessionKey) (f : FrameCounter) (m : List Byte),
    combine (keystream v overwrite k f) (combine (keystream v overwrite k f) m) = m

/-! ## Pseudo-instructions and the assembler -/

/-- 30_encoding.md R48: every expansion, word by word. -/
def Obligations.PseudoInstructionExpansions : Prop :=
  (∀ n : Nat, words (.idle n) = List.replicate n 0x0#4 ∧ words (.genN n) = List.replicate n 0x8#4) ∧
  words .warmup = List.replicate 100 0x6#4 ∧ words .genByte = List.replicate 8 0x8#4 ∧
  (∀ k : SessionKey, (words (.loadK k)).length = 64 ∧
    ∀ i, i < 64 → (words (.loadK k))[i]? = some (if k.getLsbD i then 0x5#4 else 0x4#4)) ∧
  (∀ f : FrameCounter, (words (.loadF f)).length = 22 ∧
    ∀ i, i < 22 → (words (.loadF f))[i]? = some (if f.getLsbD i then 0x5#4 else 0x4#4)) ∧
  (∀ (k : SessionKey) (f : FrameCounter),
    words (.init k f) = [0x2#4] ++ words (.loadK k) ++ words (.loadF f) ++ words .warmup ∧
    words (.initC k f) = [0x2#4] ++ words (.loadK k) ++ words (.loadF f) ++ [0xA#4] ++ words .warmup ∧
    (words (.init k f)).length = 187 ∧ (words (.initC k f)).length = 188)

/-- 70_reset_and_hazards.md §4: a step takes exactly one edge from the inputs, so a session takes one edge a command. -/
def Obligations.OneEdgeForEachCommand : Prop :=
  (∀ (s : State) (e : Edge) (es : List Edge), s.inputs = e :: es → ∃ t, step s = .next t ∧ t.inputs = es) ∧
  (∀ (k : SessionKey) (f : FrameCounter) (n : Nat), (edges (byteSession .default k f n)).length = 187 + 8 * n ∧
    (edges (byteSession .compat k f n)).length = 188 + 8 * n)

/-- 30_encoding.md §5 (listing form): one hex digit a command, read back as it was written, and the spec's example. That
the digits stand without blanks is the model's choice (log entry 19). -/
def Obligations.ListingRoundTrip : Prop :=
  (∀ ws : List CmdWord, (Assembler.listing ws).length = ws.length ∧
    Assembler.readListing (Assembler.listing ws) = some ws) ∧
  Assembler.listing (words (.init 0#64 0#22)) =
    ['2'] ++ List.replicate 86 '4' ++ List.replicate 100 '6'

/-- 30_encoding.md §5: every list of words, reserved ones among them, can be written one a line and is assembled to
itself; a comment changes nothing; nor does the case of letters. The spec says the last of mnemonics; that it holds of
the whole line, `.word` and the operands among it, is the model's choice (log entry 15). -/
def Obligations.AssemblerReadsEveryProgram : Prop :=
  (∀ (compat : Bool) (ws : List CmdWord),
    Assembler.assemble compat (ws.map (Assembler.lineOf compat)) = .ok ws) ∧
  (∀ (compat : Bool) (line comment : List Char),
    Assembler.assembleLine compat (line ++ ';' :: comment) = Assembler.assembleLine compat line) ∧
  (∀ (compat : Bool) (line line' : List Char), line.map Char.toLower = line'.map Char.toLower →
    Assembler.assembleLine compat line = Assembler.assembleLine compat line')
end

