-- ==== Sys2Proof/Laws/State.lean ====
section
/-!
SUPPORT. What each update of the state does to each field: one lemma per field per update, so that no proof unfolds a
record update.
-/

namespace Sys2Proof.Machine

/-! `State.setKsv` -/

@[simp] theorem State.setKsv_r1 (b : Bool) (s : State) : (s.setKsv b).r1 = s.r1 := rfl
@[simp] theorem State.setKsv_r2 (b : Bool) (s : State) : (s.setKsv b).r2 = s.r2 := rfl
@[simp] theorem State.setKsv_r3 (b : Bool) (s : State) : (s.setKsv b).r3 = s.r3 := rfl
@[simp] theorem State.setKsv_ksv (b : Bool) (s : State) : (s.setKsv b).ksv = b := rfl
@[simp] theorem State.setKsv_err (b : Bool) (s : State) : (s.setKsv b).err = s.err := rfl
@[simp] theorem State.setKsv_build (b : Bool) (s : State) : (s.setKsv b).build = s.build := rfl
@[simp] theorem State.setKsv_prim (b : Bool) (s : State) : (s.setKsv b).prim = s.prim := rfl
@[simp] theorem State.setKsv_inputs (b : Bool) (s : State) : (s.setKsv b).inputs = s.inputs := rfl

/-! `State.raiseErr` -/

@[simp] theorem State.raiseErr_r1 (s : State) : s.raiseErr.r1 = s.r1 := rfl
@[simp] theorem State.raiseErr_r2 (s : State) : s.raiseErr.r2 = s.r2 := rfl
@[simp] theorem State.raiseErr_r3 (s : State) : s.raiseErr.r3 = s.r3 := rfl
@[simp] theorem State.raiseErr_ksv (s : State) : s.raiseErr.ksv = s.ksv := rfl
@[simp] theorem State.raiseErr_err (s : State) : s.raiseErr.err = true := rfl
@[simp] theorem State.raiseErr_build (s : State) : s.raiseErr.build = s.build := rfl
@[simp] theorem State.raiseErr_prim (s : State) : s.raiseErr.prim = s.prim := rfl
@[simp] theorem State.raiseErr_inputs (s : State) : s.raiseErr.inputs = s.inputs := rfl

/-! `State.clockU` -/

@[simp] theorem State.clockU_r1 (b : Bool) (s : State) : (s.clockU b).r1 = shiftU Config.r1.taps s.r1 b := rfl
@[simp] theorem State.clockU_r2 (b : Bool) (s : State) : (s.clockU b).r2 = shiftU Config.r2.taps s.r2 b := rfl
@[simp] theorem State.clockU_r3 (b : Bool) (s : State) : (s.clockU b).r3 = shiftU Config.r3.taps s.r3 b := rfl
@[simp] theorem State.clockU_ksv (b : Bool) (s : State) : (s.clockU b).ksv = s.ksv := rfl
@[simp] theorem State.clockU_err (b : Bool) (s : State) : (s.clockU b).err = s.err := rfl
@[simp] theorem State.clockU_build (b : Bool) (s : State) : (s.clockU b).build = s.build := rfl
@[simp] theorem State.clockU_prim (b : Bool) (s : State) : (s.clockU b).prim = s.prim := rfl
@[simp] theorem State.clockU_inputs (b : Bool) (s : State) : (s.clockU b).inputs = s.inputs := rfl

/-! `State.clockG` -/

@[simp] theorem State.clockG_r1 (s : State) : s.clockG.r1 = shiftG Config.r1.ci Config.r1.taps s.r1 s.maj := rfl
@[simp] theorem State.clockG_r2 (s : State) : s.clockG.r2 = shiftG Config.r2.ci Config.r2.taps s.r2 s.maj := rfl
@[simp] theorem State.clockG_r3 (s : State) : s.clockG.r3 = shiftG Config.r3.ci Config.r3.taps s.r3 s.maj := rfl
@[simp] theorem State.clockG_ksv (s : State) : s.clockG.ksv = s.ksv := rfl
@[simp] theorem State.clockG_err (s : State) : s.clockG.err = s.err := rfl
@[simp] theorem State.clockG_build (s : State) : s.clockG.build = s.build := rfl
@[simp] theorem State.clockG_prim (s : State) : s.clockG.prim = s.prim := rfl
@[simp] theorem State.clockG_inputs (s : State) : s.clockG.inputs = s.inputs := rfl

/-! `State.clearRegs` -/

@[simp] theorem State.clearRegs_r1 (s : State) : s.clearRegs.r1 = 0#19 := rfl
@[simp] theorem State.clearRegs_r2 (s : State) : s.clearRegs.r2 = 0#22 := rfl
@[simp] theorem State.clearRegs_r3 (s : State) : s.clearRegs.r3 = 0#23 := rfl
@[simp] theorem State.clearRegs_ksv (s : State) : s.clearRegs.ksv = s.ksv := rfl
@[simp] theorem State.clearRegs_err (s : State) : s.clearRegs.err = s.err := rfl
@[simp] theorem State.clearRegs_build (s : State) : s.clearRegs.build = s.build := rfl
@[simp] theorem State.clearRegs_prim (s : State) : s.clearRegs.prim = s.prim := rfl
@[simp] theorem State.clearRegs_inputs (s : State) : s.clearRegs.inputs = s.inputs := rfl

/-! `State.overwriteR3` -/

@[simp] theorem State.overwriteR3_r1 (s : State) : s.overwriteR3.r1 = s.r1 := rfl
@[simp] theorem State.overwriteR3_r2 (s : State) : s.overwriteR3.r2 = s.r2 := rfl
@[simp] theorem State.overwriteR3_r3 (s : State) : s.overwriteR3.r3 = s.build.r3OverwriteValue := rfl
@[simp] theorem State.overwriteR3_ksv (s : State) : s.overwriteR3.ksv = s.ksv := rfl
@[simp] theorem State.overwriteR3_err (s : State) : s.overwriteR3.err = s.err := rfl
@[simp] theorem State.overwriteR3_build (s : State) : s.overwriteR3.build = s.build := rfl
@[simp] theorem State.overwriteR3_prim (s : State) : s.overwriteR3.prim = s.prim := rfl
@[simp] theorem State.overwriteR3_inputs (s : State) : s.overwriteR3.inputs = s.inputs := rfl

/-! `State.reserved` -/

@[simp] theorem State.reserved_r1 (s : State) : s.reserved.r1 = s.r1 := rfl
@[simp] theorem State.reserved_r2 (s : State) : s.reserved.r2 = s.r2 := rfl
@[simp] theorem State.reserved_r3 (s : State) : s.reserved.r3 = s.r3 := rfl
@[simp] theorem State.reserved_ksv (s : State) : s.reserved.ksv = false := rfl
@[simp] theorem State.reserved_err (s : State) : s.reserved.err = true := rfl
@[simp] theorem State.reserved_build (s : State) : s.reserved.build = s.build := rfl
@[simp] theorem State.reserved_prim (s : State) : s.reserved.prim = s.prim := rfl
@[simp] theorem State.reserved_inputs (s : State) : s.reserved.inputs = s.inputs := rfl

/-! `State.resetCore` -/

@[simp] theorem State.resetCore_r1 (s : State) : s.resetCore.r1 = 0#19 := rfl
@[simp] theorem State.resetCore_r2 (s : State) : s.resetCore.r2 = 0#22 := rfl
@[simp] theorem State.resetCore_r3 (s : State) : s.resetCore.r3 = 0#23 := rfl
@[simp] theorem State.resetCore_ksv (s : State) : s.resetCore.ksv = false := rfl
@[simp] theorem State.resetCore_err (s : State) : s.resetCore.err = false := rfl
@[simp] theorem State.resetCore_build (s : State) : s.resetCore.build = s.build := rfl
@[simp] theorem State.resetCore_prim (s : State) : s.resetCore.prim = s.prim := rfl
@[simp] theorem State.resetCore_inputs (s : State) : s.resetCore.inputs = s.inputs := rfl

/-! `State.onPrim` -/

@[simp] theorem State.onPrim_r1 (f : (p : Prim) → BitVec p.params.len) (s : State) : (s.onPrim f).r1 = s.r1 := rfl
@[simp] theorem State.onPrim_r2 (f : (p : Prim) → BitVec p.params.len) (s : State) : (s.onPrim f).r2 = s.r2 := rfl
@[simp] theorem State.onPrim_r3 (f : (p : Prim) → BitVec p.params.len) (s : State) : (s.onPrim f).r3 = s.r3 := rfl
@[simp] theorem State.onPrim_ksv (f : (p : Prim) → BitVec p.params.len) (s : State) : (s.onPrim f).ksv = s.ksv := rfl
@[simp] theorem State.onPrim_err (f : (p : Prim) → BitVec p.params.len) (s : State) : (s.onPrim f).err = s.err := rfl
@[simp] theorem State.onPrim_build (f : (p : Prim) → BitVec p.params.len) (s : State) : (s.onPrim f).build = s.build :=
    rfl
@[simp] theorem State.onPrim_prim (f : (p : Prim) → BitVec p.params.len) (s : State) : (s.onPrim f).prim = { s.prim with q := f s.prim } :=
    rfl
@[simp] theorem State.onPrim_inputs (f : (p : Prim) → BitVec p.params.len) (s : State) : (s.onPrim f).inputs = s.inputs :=
    rfl

/-! `State.resetPrim` -/

@[simp] theorem State.resetPrim_r1 (s : State) : s.resetPrim.r1 = s.r1 := rfl
@[simp] theorem State.resetPrim_r2 (s : State) : s.resetPrim.r2 = s.r2 := rfl
@[simp] theorem State.resetPrim_r3 (s : State) : s.resetPrim.r3 = s.r3 := rfl
@[simp] theorem State.resetPrim_ksv (s : State) : s.resetPrim.ksv = s.ksv := rfl
@[simp] theorem State.resetPrim_err (s : State) : s.resetPrim.err = s.err := rfl
@[simp] theorem State.resetPrim_build (s : State) : s.resetPrim.build = s.build := rfl
@[simp] theorem State.resetPrim_prim (s : State) : s.resetPrim.prim = { s.prim with q := 0#_ } := rfl
@[simp] theorem State.resetPrim_inputs (s : State) : s.resetPrim.inputs = s.inputs := rfl

/-! `State.takeEdge` -/

@[simp] theorem State.takeEdge_r1 (s : State) : s.takeEdge.r1 = s.r1 := rfl
@[simp] theorem State.takeEdge_r2 (s : State) : s.takeEdge.r2 = s.r2 := rfl
@[simp] theorem State.takeEdge_r3 (s : State) : s.takeEdge.r3 = s.r3 := rfl
@[simp] theorem State.takeEdge_ksv (s : State) : s.takeEdge.ksv = s.ksv := rfl
@[simp] theorem State.takeEdge_err (s : State) : s.takeEdge.err = s.err := rfl
@[simp] theorem State.takeEdge_build (s : State) : s.takeEdge.build = s.build := rfl
@[simp] theorem State.takeEdge_prim (s : State) : s.takeEdge.prim = s.prim := rfl
@[simp] theorem State.takeEdge_inputs (s : State) : s.takeEdge.inputs = s.inputs.tail := rfl

/-! `State.present` -/

@[simp] theorem State.present_r1 (e : Edge) (s : State) : (s.present e).r1 = s.r1 := rfl
@[simp] theorem State.present_r2 (e : Edge) (s : State) : (s.present e).r2 = s.r2 := rfl
@[simp] theorem State.present_r3 (e : Edge) (s : State) : (s.present e).r3 = s.r3 := rfl
@[simp] theorem State.present_ksv (e : Edge) (s : State) : (s.present e).ksv = s.ksv := rfl
@[simp] theorem State.present_err (e : Edge) (s : State) : (s.present e).err = s.err := rfl
@[simp] theorem State.present_build (e : Edge) (s : State) : (s.present e).build = s.build := rfl
@[simp] theorem State.present_prim (e : Edge) (s : State) : (s.present e).prim = s.prim := rfl
@[simp] theorem State.present_inputs (e : Edge) (s : State) : (s.present e).inputs = e :: s.inputs := rfl

/-- Presenting an edge and taking it leaves the machine as it was. -/
@[simp] theorem State.takeEdge_present (e : Edge) (s : State) : (s.present e).takeEdge = s := rfl

/-- The edge presented last is the next one. -/
@[simp] theorem State.nextEdge_present (e : Edge) (s : State) : (s.present e).nextEdge = e := rfl

end Sys2Proof.Machine
end

