-- ==== Sys2Proof/Laws/Ops.lean ====
section
/-!
SUPPORT. What the shared operations can do, said once: bits of a shift, the parity of the taps, the two clock modes, the
majority unit, and a primitive's edge.
-/

namespace Sys2Proof.Machine

/-! Shift (40_shift_register.md R55). -/

/-- Bit 0 is the new bit and every other bit is the one below it. -/
theorem getLsbD_shift {n : Nat} (q : BitVec n) (b : Bool) (i : Nat) :
    (shift q b).getLsbD i = (decide (i < n) && if i = 0 then b else q.getLsbD (i - 1)) :=
  BitVec.getLsbD_shiftConcat q b i

/-- The same, for an index in range. -/
theorem getElem_shift {n : Nat} (q : BitVec n) (b : Bool) (i : Nat) (h : i < n) :
    (shift q b)[i] = if i = 0 then b else q.getLsbD (i - 1) := by
  rw [← BitVec.getLsbD_eq_getElem, getLsbD_shift]
  simp [h]

/-- Shifting is linear over GF(2). -/
theorem shift_xor {n : Nat} (p q : BitVec n) (a b : Bool) :
    shift (p ^^^ q) (a ^^ b) = shift p a ^^^ shift q b := by
  apply BitVec.eq_of_getLsbD_eq
  intro i hi
  simp only [getLsbD_shift, BitVec.getLsbD_xor]
  by_cases h : i = 0
  · subst h; simp [hi]
  · simp [h, hi]

/-- Shifting a 0 into the zero register. -/
@[simp] theorem shift_zero {n : Nat} : shift (0#n) false = 0#n := by
  apply BitVec.eq_of_getLsbD_eq
  intro i _
  simp [getLsbD_shift]

/-! Feedback (40_shift_register.md R54). -/

/-- The parity so far only flips the result. -/
theorem foldl_parity {n : Nat} (taps : List Nat) (q : BitVec n) (acc : Bool) :
    taps.foldl (fun parity t => parity ^^ q.getLsbD t) acc = (acc ^^ feedback taps q) := by
  induction taps generalizing acc with
  | nil => simp [feedback]
  | cons t ts ih => simp only [feedback, List.foldl_cons]; rw [ih, ih (false ^^ _)]; simp

/-- No taps give 0. -/
@[simp] theorem feedback_nil {n : Nat} (q : BitVec n) : feedback [] q = false := rfl

/-- One more tap flips the parity by its bit. -/
theorem feedback_cons {n : Nat} (t : Nat) (ts : List Nat) (q : BitVec n) :
    feedback (t :: ts) q = (q.getLsbD t ^^ feedback ts q) := by
  simp only [feedback, List.foldl_cons, Bool.false_xor]
  exact foldl_parity ts q _

/-- The parity is linear over GF(2). -/
theorem feedback_xor {n : Nat} (taps : List Nat) (p q : BitVec n) :
    feedback taps (p ^^^ q) = (feedback taps p ^^ feedback taps q) := by
  induction taps with
  | nil => rfl
  | cons t ts ih => simp only [feedback_cons, BitVec.getLsbD_xor, ih, Bool.xor_assoc, Bool.xor_left_comm]

/-- The parity of the zero register. -/
@[simp] theorem feedback_zero {n : Nat} (taps : List Nat) : feedback taps (0#n) = false := by
  induction taps with
  | nil => rfl
  | cons t ts ih => simp [feedback_cons, ih]

/-! The two clock modes (R57, R58). -/

/-- Where the clocking bit differs from the input bit, the register holds: law (b) of R62. -/
theorem shiftG_hold {n : Nat} (ci : Nat) (taps : List Nat) (q : BitVec n) (b : Bool) (h : clockBit ci q ≠ b) :
    shiftG ci taps q b = q := by
  simp [shiftG, h]

/-! The laws of the primitive (40_shift_register.md R62), of the functions the meanings are made of. Law (b) is
`shiftG_hold`. -/

/-- Law (a), the width: an operation on the stand-alone primitive leaves its parameters, and so the `LEN` bits that are
the type of its register, as they were. -/
theorem State.onPrim_params (f : (p : Prim) → BitVec p.params.len) (s : State) :
    (s.onPrim f).prim.params = s.prim.params := rfl

/-- Law (c), always-shift: every bit above index 0 is the one below it, whatever the clocking bit. -/
theorem getLsbD_shiftU_succ {n : Nat} (taps : List Nat) (q : BitVec n) (b : Bool) (i : Nat) (h : i + 1 < n) :
    (shiftU taps q b).getLsbD (i + 1) = q.getLsbD i := by
  rw [shiftU, getLsbD_shift]
  simp [h]

/-- Law (d), linearity of the unconditional clock over GF(2). -/
theorem shiftU_xor {n : Nat} (taps : List Nat) (p q : BitVec n) (a b : Bool) :
    shiftU taps (p ^^^ q) (a ^^ b) = shiftU taps p a ^^^ shiftU taps q b := by
  simp only [shiftU, ← shift_xor, feedback_xor, Bool.xor_assoc, Bool.xor_left_comm]

/-- Law (e): where the gated clock shifts, it shifts as the unconditional clock of 0 does. -/
theorem shiftG_agree {n : Nat} (ci : Nat) (taps : List Nat) (q : BitVec n) (b : Bool) (h : clockBit ci q = b) :
    shiftG ci taps q b = shiftU taps q false := by
  simp [shiftG, shiftU, h]

/-- Law (f), zero, for the unconditional clock of 0. -/
@[simp] theorem shiftU_zero {n : Nat} (taps : List Nat) : shiftU taps (0#n) false = 0#n := by
  simp [shiftU]

/-- Law (f), zero, for the gated clock of either bit. -/
@[simp] theorem shiftG_zero {n : Nat} (ci : Nat) (taps : List Nat) (b : Bool) : shiftG ci taps (0#n) b = 0#n := by
  simp [shiftG]

/-! The majority unit (41_keystream_core.md R64). -/

/-- The integer sum halved is the two-of-three form. -/
theorem majority_eq (c1 c2 c3 : Bool) : majority c1 c2 c3 = ((c1 && c2) || (c1 && c3) || (c2 && c3)) := by
  cases c1 <;> cases c2 <;> cases c3 <;> rfl

/-- A minority of one: if a clocking bit differs from the majority, the other two agree with it. -/
theorem majority_minority {c1 c2 c3 : Bool} (h : c1 ≠ majority c1 c2 c3) :
    c2 = majority c1 c2 c3 ∧ c3 = majority c1 c2 c3 := by
  revert h
  cases c1 <;> cases c2 <;> cases c3 <;> decide

/-! A primitive's edge (40_shift_register.md R53). -/

/-- Reset is above every control signal. -/
@[simp] theorem primEdge_rst {n : Nat} (p : Params) (c : Control) (v q : BitVec n) : primEdge p true c v q = 0#n := rfl

/-- `clr` is above `ld` and `en`. -/
theorem primEdge_clr {n : Nat} (p : Params) (c : Control) (v q : BitVec n) (h : c.clr = true) :
    primEdge p false c v q = 0#n := by
  simp [primEdge, h]

/-- `ld` is above `en`. -/
theorem primEdge_ld {n : Nat} (p : Params) (c : Control) (v q : BitVec n) (h : c.clr = false) (hl : c.ld = true) :
    primEdge p false c v q = v := by
  simp [primEdge, h, hl]

/-- With none of `clr`, `ld`, `en` the register holds. -/
theorem primEdge_hold {n : Nat} (p : Params) (c : Control) (v q : BitVec n) (h : c.clr = false) (hl : c.ld = false)
    (he : c.en = false) : primEdge p false c v q = q := by
  simp [primEdge, h, hl, he]

/-- With `en` alone the register is clocked in the mode that `mode` names. -/
theorem primEdge_clock {n : Nat} (p : Params) (c : Control) (v q : BitVec n) (h : c.clr = false) (hl : c.ld = false)
    (he : c.en = true) :
    primEdge p false c v q = if c.mode then shiftG p.ci p.taps q c.ib else shiftU p.taps q c.ib := by
  cases hm : c.mode <;> simp [primEdge, h, hl, he, hm]

end Sys2Proof.Machine
end

