-- ==== Sys2Proof/Laws/PerInstr.lean ====
section
/-!
SUPPORT. The family `Format`, one lemma per constructor of `Instr`: a command of the core has a command word and an
operation of a primitive has a control vector (30_encoding.md R40, R46).
-/

namespace Sys2Proof.Laws.Format

/-- The instruction has a command word exactly when it is a command of the core. -/
def Statement (i : Instr) : Prop := (commandWord? i).isSome = i.isCommand

theorem nop : Statement .nop := rfl
theorem clr : Statement .clr := rfl
theorem load (b : Bool) : Statement (.load b) := rfl
theorem warm : Statement .warm := rfl
theorem gen : Statement .gen := rfl
theorem ldr3c : Statement .ldr3c := rfl
theorem reserved101 : Statement .reserved101 := rfl
theorem reserved110 : Statement .reserved110 := rfl
theorem reserved111 : Statement .reserved111 := rfl
theorem pClear : Statement .pClear := rfl
theorem pLoad (ldVal : Nat) : Statement (.pLoad ldVal) := rfl
theorem pHold : Statement .pHold := rfl
theorem pShiftU (b : Bool) : Statement (.pShiftU b) := rfl
theorem pShiftG (b : Bool) : Statement (.pShiftG b) := rfl

end Sys2Proof.Laws.Format
end

