-- ==== Sys2Proof/Laws/Step.lean ====
section
/-!
SUPPORT. What one edge can do, said once: the words on the ports are read back as they were encoded, and a step has one
of three shapes.
-/

namespace Sys2Proof.Machine

/-- The fields of a command word are read back. -/
@[simp] theorem opField_cmdWord (op : Opcode) (din : Bool) : opField (cmdWord op din) = op := by
  revert op din; decide

/-- The data bit of a command word is read back. -/
@[simp] theorem dinField_cmdWord (op : Opcode) (din : Bool) : dinField (cmdWord op din) = din := by
  revert op din; decide

/-- A command word is its two fields. -/
@[simp] theorem cmdWord_fields (cw : CmdWord) : cmdWord (opField cw) (dinField cw) = cw := by
  revert cw; decide

/-- A control vector is its five signals. -/
theorem ctrlVec_bits (pc : CtrlVec) :
    ctrlVec (pc.getLsbD 4) (pc.getLsbD 3) (pc.getLsbD 2) (pc.getLsbD 1) (pc.getLsbD 0) = pc := by
  revert pc; decide

/-- The signals of a control vector are read back. -/
theorem getLsbD_ctrlVec (clr ld en mode ib : Bool) :
    (ctrlVec clr ld en mode ib).getLsbD 4 = clr ∧ (ctrlVec clr ld en mode ib).getLsbD 3 = ld ∧
    (ctrlVec clr ld en mode ib).getLsbD 2 = en ∧ (ctrlVec clr ld en mode ib).getLsbD 1 = mode ∧
    (ctrlVec clr ld en mode ib).getLsbD 0 = ib := by
  revert clr ld en mode ib; decide

/-- An encoded instruction on the ports is what the hardware decodes. -/
theorem edgeAction_edgeOfEncoded (compat : Bool) (e : Encoded) :
    edgeAction compat (edgeOfEncoded e) = .run (decode compat e) := by
  cases e with
  | cmd cw => simp [edgeAction, edgeOfEncoded, CorePorts.word]
  | ctrl pc v =>
    simp only [edgeAction, edgeOfEncoded, PrimPorts.vector, ctrlVec_bits]
    rfl

/-- A step that answers a next state is a reset of the core, a reset of the primitive, or one instruction. -/
theorem step_cases {s t : State} (h : step s = .next t) :
    (edgeAction s.build.compatR3Overwrite s.nextEdge = .resetCore ∧ t = s.takeEdge.resetCore) ∨
    (edgeAction s.build.compatR3Overwrite s.nextEdge = .resetPrim ∧ t = s.takeEdge.resetPrim) ∨
    (∃ i, edgeAction s.build.compatR3Overwrite s.nextEdge = .run i ∧ exec i s.takeEdge = .next t) := by
  unfold step at h
  split at h
  · exact .inl ⟨‹_›, (Host.Outcome.next.inj h).symm⟩
  · exact .inr (.inl ⟨‹_›, (Host.Outcome.next.inj h).symm⟩)
  · exact .inr (.inr ⟨_, ‹_›, h⟩)

/-- A step whose edge carries an instruction is that instruction. -/
theorem step_run {s : State} {i : Instr} (h : edgeAction s.build.compatR3Overwrite s.nextEdge = .run i) :
    step s = exec i s.takeEdge := by
  unfold step; rw [h]

/-- One more step of a run. -/
theorem run_succ_of_step {s t : State} (h : step s = .next t) (k : Nat) :
    Host.Core.run core (k + 1) s = Host.Core.run core k t := by
  have h' : core.step s = Host.Outcome.next t := h
  simp only [Host.Core.run, h']

/-- No steps. -/
@[simp] theorem run_zero (s : State) : Host.Core.run core 0 s = .next s := rfl

end Sys2Proof.Machine
end

