-- ==== Sys2Proof/Tests/Slice0.lean ====
section
/-!
SUPPORT. The model's own tests: the well-formedness smoke, words written out from the spec's encoding tables, single steps
with results taken from the spec's own tables (95_test_vectors.md L1 and L2), and a witness for the hypotheses of each
statement.
-/

namespace Sys2Proof.Tests

open Sys2Proof.Machine Sys2Proof.Session Sys2Proof.Claims

/-! ## Helpers -/

/-- A small state: a build, a core's registers, a primitive in a configuration, no inputs. -/
def small (compat : Bool) (r1 : R1Bits) (r2 : R2Bits) (r3 : R3Bits) (err : Bool) : State :=
  { r1 := r1, r2 := r2, r3 := r3, ksv := false, err := err, build := ⟨compat, 0x2AAAAA#23⟩,
    prim := { params := Config.r1, q := 0x2100#19 }, inputs := [] }

/-- The start state S of 95_test_vectors.md L2.6. -/
def startS : State := small false 0x00100#19 0x000100#22 0x000101#23 false

/-- A state whose primitive has the configuration of R1, with a given register. -/
def prim1 (q : BitVec 19) : State := { startS with prim := { params := Config.r1, q := q } }
/-- A state whose primitive has the configuration of R2. -/
def prim2 (q : BitVec 22) : State := { startS with prim := { params := Config.r2, q := q } }
/-- A state whose primitive has the configuration of R3. -/
def prim3 (q : BitVec 23) : State := { startS with prim := { params := Config.r3, q := q } }

/-- The state an outcome goes on with. -/
def after : Host.Outcome State Fault Refusal → Option State
  | .next s => some s
  | .fault _ => none
  | .refused _ => none

/-- The core of the state after an instruction. -/
def coreAfter (i : Instr) (s : State) : Option (R1Bits × R2Bits × R3Bits × Bool × Bool × Bool) :=
  (after (exec i s)).map fun t => (t.r1, t.r2, t.r3, t.ksv, t.err, t.ks)

/-- The primitive's register after an instruction, as a number. -/
def qAfter (i : Instr) (s : State) : Option Nat := (after (exec i s)).map fun t => t.prim.q.toNat

/-- The core's ports with `rst = 0`. -/
def ports (op : Opcode) (din : Bool) : CorePorts := ⟨false, op, din⟩

/-! ## Well-formedness: an ill-formed term for each check (R50, R44, R59) -/

theorem test_refuses_length_zero : (Params.mk 0 0 []).problem = some .lenZero := by decide
theorem test_refuses_clocking_index_out_of_range : (Params.mk 4 4 [1]).problem = some .ciOutOfRange := by decide
theorem test_refuses_tap_out_of_range : (Params.mk 4 0 [1, 4]).problem = some .tapOutOfRange := by decide
theorem test_refuses_repeated_tap : (Params.mk 4 0 [1, 3, 1]).problem = some .tapRepeated := by decide
theorem test_accepts_core_and_edge_parameters :
    Config.r1.problem = none ∧ Config.r2.problem = none ∧ Config.r3.problem = none ∧
    (Params.mk 1 0 []).problem = none ∧ (Params.mk 1 0 [0]).problem = none := by decide
theorem test_refuses_ldr3c_in_default_build : Instr.ldr3c.wellFormed false 19 = false := by decide
theorem test_refuses_reserved101_in_compat_build : Instr.reserved101.wellFormed true 19 = false := by decide
theorem test_refuses_ld_val_wider_than_port :
    (Instr.pLoad 0x80000).wellFormed false 19 = false ∧ (Instr.pLoad 0x7FFFF).wellFormed false 19 = true := by decide

/-! ## Words written out from 30_encoding.md R42 and R46 -/

theorem test_decode_commands :
    decodeTableWord 4 0b0000 = some .nop ∧ decodeTableWord 4 0b0010 = some .clr ∧
    decodeTableWord 4 0b0100 = some (.load false) ∧ decodeTableWord 4 0b0101 = some (.load true) ∧
    decodeTableWord 4 0b0110 = some .warm ∧ decodeTableWord 4 0b1000 = some .gen := by decide
theorem test_decode_op101_in_both_builds :
    decode true (.cmd 0b1010#4) = .ldr3c ∧ decode true (.cmd 0b1011#4) = .ldr3c ∧
    decode false (.cmd 0b1010#4) = .reserved101 ∧ decodeTableWord 8 0b1011 = some .reserved101 := by decide
theorem test_decode_reserved :
    decodeTableWord 8 0b1100 = some .reserved110 ∧ decodeTableWord 8 0b1111 = some .reserved111 := by decide
theorem test_decode_control_vectors :
    decodeTableWord 5 0b10000 = some .pClear ∧ decodeTableWord 5 0b11111 = some .pClear ∧
    decode false (.ctrl 0b01000#5 7) = .pLoad 7 ∧ decodeTableWord 5 0b00000 = some .pHold ∧
    decodeTableWord 5 0b00011 = some .pHold ∧ decodeTableWord 5 0b00100 = some (.pShiftU false) ∧
    decodeTableWord 5 0b00101 = some (.pShiftU true) ∧ decodeTableWord 5 0b00110 = some (.pShiftG false) ∧
    decodeTableWord 5 0b00111 = some (.pShiftG true) := by decide
theorem test_decode_rejects_other_widths :
    encodedOfBits 3 0 = .error .noSuchFormat ∧ encodedOfBits 4 16 = .error .wordTooWide ∧
    decodeTableWord 16 0 = none := by decide
theorem test_encode_words :
    encode .gen = .cmd 0x8#4 ∧ encode (.load true) = .cmd 0x5#4 ∧ encode .ldr3c = .cmd 0xA#4 ∧
    encode (.pShiftG true) = .ctrl 0b00111#5 0 ∧ encode (.pLoad 9) = .ctrl 0b01000#5 9 := by decide

/-! ## Commands: the rows of 95_test_vectors.md L2.6, and R73's example -/

theorem test_nop : coreAfter .nop startS = some (0x00100#19, 0x000100#22, 0x000101#23, false, false, false) := by decide
theorem test_clr_keeps_err :
    coreAfter .clr { startS with err := true } = some (0#19, 0#22, 0#23, false, true, false) := by decide
theorem test_load_0 :
    coreAfter (.load false) startS = some (0x00200#19, 0x000200#22, 0x000202#23, false, false, false) := by decide
theorem test_load_1 :
    coreAfter (.load true) startS = some (0x00201#19, 0x000201#22, 0x000203#23, false, false, false) := by decide
theorem test_warm : coreAfter .warm startS = some (0x00100#19, 0x000200#22, 0x000202#23, false, false, false) := by decide
theorem test_gen : coreAfter .gen startS = some (0x00100#19, 0x000200#22, 0x000202#23, true, false, false) := by decide
theorem test_gen_first_keystream_bit : coreAfter .gen (small false 0x2396C#19 0x3B760B#22 0x7C402A#23 false) =
    some (0x472D8#19, 0x36EC16#22, 0x7C402A#23, true, false, true) := by decide
theorem test_ldr3c_compat : coreAfter .ldr3c (small true 0x00100#19 0x000100#22 0x000101#23 false) =
    some (0x00100#19, 0x000100#22, 0x2AAAAA#23, false, false, false) := by decide
theorem test_ldr3c_default :
    coreAfter .ldr3c startS = some (0x00100#19, 0x000100#22, 0x000101#23, false, true, false) := by decide
theorem test_reserved110 :
    coreAfter .reserved110 startS = some (0x00100#19, 0x000100#22, 0x000101#23, false, true, false) := by decide
theorem test_reserved111_err_stays :
    coreAfter .reserved111 { startS with err := true } =
      some (0x00100#19, 0x000100#22, 0x000101#23, false, true, false) := by decide
theorem test_reset_edge_over_command :
    (after (step { startS with err := true, ksv := true, inputs := [.core ⟨true, 0b100#3, true⟩] })).map
      (fun t => (t.r1, t.r2, t.r3, t.ksv, t.err)) = some (0#19, 0#22, 0#23, false, false) := by decide
theorem test_combiner :
    (small false 0x40000#19 0#22 0#23 false).ks = true ∧ (small false 0x40000#19 0x200000#22 0#23 false).ks = false ∧
    (small false 0x7FFFF#19 0x3FFFFF#22 0x7FFFFF#23 false).ks = true := by decide

/-! ## The primitive: rows of L2.1 to L2.4 -/

theorem test_feedback :
    feedback Config.r1.taps (0x02000#19) = true ∧ feedback Config.r1.taps (0x7FFFF#19) = false ∧
    feedback Config.r2.taps (0x300000#22) = false ∧ feedback Config.r3.taps (0x000080#23) = true := by decide
theorem test_shiftu_cancels_feedback : qAfter (.pShiftU true) (prim1 0x40000#19) = some 0x00000 := by decide
theorem test_shiftu_r3 : qAfter (.pShiftU false) (prim3 0x700080#23) = some 0x600100 := by decide
theorem test_shiftg_bit_not_mixed_in : qAfter (.pShiftG true) (prim1 0x00100#19) = some 0x00200 := by decide
theorem test_shiftg_holds_and_shifts :
    qAfter (.pShiftG false) (prim3 0x000400#23) = some 0x000400 ∧
    qAfter (.pShiftG true) (prim2 0x200400#22) = some 0x000801 := by decide
theorem test_hold : qAfter .pHold (prim1 0x02100#19) = some 0x02100 := by decide
theorem test_load_port : qAfter (.pLoad 0x7FFFFF) (prim3 0x5A820F#23) = some 0x7FFFFF := by decide
theorem test_clear : qAfter .pClear (prim3 0x5A820F#23) = some 0 := by decide
theorem test_clear_beats_load :
    (after (step { prim3 0x5A820F#23 with inputs := [.prim ⟨false, true, true, false, false, false, 0x7FFFFF⟩] })).map
      (fun t => t.prim.q.toNat) = some 0 := by decide

/-! ## Session and assembler: values of L2.7, L2.10, P5 -/

theorem test_key_feed_order :
    (keyFeed 0x123456789ABCDEF0#64).take 8 = [false, false, false, false, true, true, true, true] := by decide
theorem test_host_byte :
    keystreamByte (fun n => n == 0 || n == 3) 0 = 0x90#8 ∧ combine (fun n => n == 0 || n == 3) [0x48#8] = [0xD8#8] := by
  decide
theorem test_assemble_reserved_word :
    Assembler.assembleLine false ['.', 'w', 'o', 'r', 'd', ' ', '0', 'x', 'C', ' ', ';', 'x'] = .ok [0xC#4] := by decide
theorem test_assemble_initc_needs_compat :
    Assembler.assembleLine false ['I', 'N', 'I', 'T', 'C', ' ', '0', ',', '1'] = .error .needsCompat := by decide

/-! ## Reset, and a word placed for the next step -/

theorem test_reset_then_word :
    (after (step (State.reset.withFetchWord 8 0x5))).map (fun t => (t.r1, t.r2, t.r3, t.ksv)) =
      some (1#19, 1#22, 1#23, false) := by decide

/-! ## Witnesses: concrete values that meet each statement's hypotheses -/

/-- ResetEdgeClearsTheCore, both clauses. -/
theorem witness_reset_edge :
    ∃ (s t : State) (p : CorePorts), s.nextEdge = .core p ∧ p.rst = true ∧ step s = .next t ∧ s.err = true ∧
      t.err = false :=
  ⟨{ startS with err := true, inputs := [.core ⟨true, 0#3, false⟩] }, _, ⟨true, 0#3, false⟩, rfl, rfl, rfl, rfl, rfl⟩

/-- HeldResetKeepsResetValues, with a command after two reset edges. -/
theorem witness_held_reset :
    ∃ (ps : List CorePorts) (s : State) (rest more : List Edge) (p : CorePorts), ps ≠ [] ∧ (∀ p ∈ ps, p.rst = true) ∧
      s.inputs = coreEdges ps ++ rest ∧ rest = .core p :: more ∧ p.rst = false :=
  ⟨[⟨true, 7#3, true⟩, ⟨true, 0#3, false⟩],
   { startS with inputs := coreEdges [⟨true, 7#3, true⟩, ⟨true, 0#3, false⟩] ++ [.core (ports 4#3 false)] },
   [.core (ports 4#3 false)], [], ports 4#3 false, by decide, by decide, rfl, rfl, rfl⟩

/-- StepRunsTheDecodedInstruction, its five clauses. -/
theorem witness_step_edges :
    (∃ (s : State) (es : List Edge) (p : CorePorts), s.inputs = .core p :: es ∧ p.rst = false) ∧
    (∃ (s : State) (es : List Edge) (p : CorePorts), s.inputs = .core p :: es ∧ p.rst = true) ∧
    (∃ (s : State) (es : List Edge) (p : PrimPorts), s.inputs = .prim p :: es ∧ p.rst = false) ∧
    (∃ (s : State) (es : List Edge) (p : PrimPorts), s.inputs = .prim p :: es ∧ p.rst = true) ∧
    (∃ s : State, s.inputs = []) :=
  ⟨⟨startS.present (.core (ports 3#3 true)), [], _, rfl, rfl⟩,
   ⟨startS.present (.core ⟨true, 0#3, true⟩), [], _, rfl, rfl⟩,
   ⟨startS.present (.prim ⟨false, false, true, false, false, false, 3⟩), [], _, rfl, rfl⟩,
   ⟨startS.present (.prim ⟨true, false, true, false, false, false, 3⟩), [], _, rfl, rfl⟩, ⟨startS, rfl⟩⟩

/-- PresentedInstructionRuns and OnlyReservedCommandsRaiseErr: an instruction of each build's own. -/
theorem witness_in_build :
    Instr.ldr3c.inBuild (small true 0 0 0 false).build.compatR3Overwrite = true ∧ Instr.ldr3c.isReserved = false ∧
    Instr.reserved101.inBuild startS.build.compatR3Overwrite = true ∧ Instr.reserved101.isReserved = true := by decide

/-- FetchedWordRuns: the lowest and the highest word of both widths. -/
theorem witness_fetched_word :
    startS.build.compatR3Overwrite = false ∧ decodeTableWord 4 0 = some .nop ∧
    decodeTableWord 8 15 = some .reserved111 ∧ decodeTableWord 5 31 = some .pClear := by decide

/-- DataBitIsIgnored, its hypotheses. -/
theorem witness_data_bit :
    (0b001#3 : Opcode) ≠ 0b010#3 ∧ (0b011#3 : Opcode) ≠ 0b010#3 ∧
    ((∀ b, Instr.gen ≠ .load b) ∧ commandWord? .gen = some 0x8#4) ∧
    Assembler.assembleBare ['c', 'l', 'r'] = .ok [0x2#4] := by decide

/-- ReservedWords, the lowest and the highest reserved word. -/
theorem witness_reserved_words :
    (decodeCmd false 0xA#4).isReserved = true ∧ (decodeCmd true 0xF#4).isReserved = true := by decide

/-- DecodeInvertsEncode: `op = 101` in each build. -/
theorem witness_decode_inverts : Instr.ldr3c.inBuild true = true ∧ Instr.reserved101.inBuild false = true := by decide

/-- NopHoldsTheRegisters: three `NOP`s and something after them. -/
theorem witness_nops :
    (withInputs startS (List.replicate 3 (edgeOfInstr .nop) ++ [edgeOfInstr .clr])).inputs =
      List.replicate 3 (edgeOfInstr .nop) ++ [edgeOfInstr .clr] := rfl

/-- The clauses on zero registers (`LOAD`, `WARM`, `GEN`), and on a zero primitive register. -/
theorem witness_zero_regs : ZeroRegs (small false 0#19 0#22 0#23 false) ∧ (prim1 0#19).prim.q = 0#_ := by
  refine ⟨⟨rfl, rfl, rfl⟩, rfl⟩

/-- Ldr3cOverwritesR3: both builds. -/
theorem witness_builds :
    (small true 0 0 0 false).build.compatR3Overwrite = true ∧ startS.build.compatR3Overwrite = false := by decide

/-- ReservedCommandSetsErr, its last clause. -/
theorem witness_reserved_then_next :
    ∃ (i j : Instr) (s t : State) (es : List Edge), i.isReserved = true ∧ i.inBuild s.build.compatR3Overwrite = true ∧
      j.inBuild s.build.compatR3Overwrite = true ∧ s.inputs = edgeOfInstr i :: edgeOfInstr j :: es ∧ step s = .next t :=
  ⟨.reserved110, .gen, withInputs startS [edgeOfInstr .reserved110, edgeOfInstr .gen], _, [], rfl, rfl, rfl, rfl, rfl⟩

/-- PrimitiveEdgePriority: a port setting for each of its six clauses. -/
theorem witness_primitive_edges :
    let at' (p : PrimPorts) := (startS.present (.prim p)).nextEdge = .prim p
    at' ⟨true, true, true, true, true, true, 5⟩ ∧ at' ⟨false, true, true, true, true, true, 5⟩ ∧
    at' ⟨false, false, true, true, true, true, 5⟩ ∧ at' ⟨false, false, false, false, true, true, 5⟩ ∧
    at' ⟨false, false, false, true, false, true, 5⟩ ∧ at' ⟨false, false, false, true, true, true, 5⟩ := by decide

/-- ShiftMovesTowardTheTop: the shortest length of its numeric clause, and one above. -/
theorem witness_shift_lengths : 1 ≤ 1 ∧ 1 ≤ 19 := by decide

/-- PShiftuAlwaysShifts: an instance without taps. -/
theorem witness_no_taps : ∃ s : State, s.prim.params.taps = [] :=
  ⟨{ startS with prim := { params := ⟨1, 0, []⟩, q := 1#1 } }, rfl⟩

/-- PShiftgShiftsOnAgreement and PrimitiveLaws: a register that agrees with 1 and one that does not. -/
theorem witness_shiftg_cases :
    (prim1 0x00100#19).prim.q.getLsbD (prim1 0x00100#19).prim.params.ci = true ∧
    (prim1 0x00000#19).prim.q.getLsbD (prim1 0x00000#19).prim.params.ci ≠ true := by decide

/-- PLoadTakesThePort and PrimitiveLaws: the highest value of the port, a step that shifts, the highest index. -/
theorem witness_port_and_shift :
    0x7FFFF < 2 ^ (prim1 0#19).prim.params.len ∧ 17 + 1 < (prim1 0#19).prim.params.len ∧
    ∃ t, exec (.pShiftU true) (prim1 0#19) = .next t :=
  ⟨by decide, by decide, _, rfl⟩

/-- MajorityTruthTable and AtLeastTwoRegistersShift: R1, R2 or R3 alone against the majority, and all three with it. -/
theorem witness_minorities :
    (startS.r1.getLsbD 8 ≠ startS.maj ∧ startS.r2.getLsbD 10 = startS.maj ∧ startS.r3.getLsbD 10 = startS.maj) ∧
    (let s := small false 0 0x400#22 0 false
     s.r2.getLsbD 10 ≠ s.r1.getLsbD 8 ∧ s.r2.getLsbD 10 ≠ s.r3.getLsbD 10 ∧ s.r2.getLsbD 10 ≠ s.maj) ∧
    (let s := small false 0 0 0x400#23 false
     s.r3.getLsbD 10 ≠ s.r1.getLsbD 8 ∧ s.r3.getLsbD 10 ≠ s.r2.getLsbD 10 ∧ s.r3.getLsbD 10 ≠ s.maj) ∧
    (let s := small false 0x100#19 0x400#22 0x400#23 false
     s.r1.getLsbD 8 = s.r2.getLsbD 10 ∧ s.r2.getLsbD 10 = s.r3.getLsbD 10 ∧ s.r1.getLsbD 8 = s.maj) := by decide

/-- CommandsDriveThePrimitives: `CLR` with every don't-care at 1, `LDR3C` in the compatibility build, and a reset. -/
theorem witness_control_rows :
    (∃ row, controlRow startS.maj .clr = some row ∧ Instr.clr.inBuild startS.build.compatR3Overwrite = true ∧
      row.r1.admits ⟨true, true, true, true, true⟩ = true ∧ row.r2.admits ⟨true, true, true, true, true⟩ = true ∧
      row.r3.admits ⟨true, true, true, true, true⟩ = true) ∧
    (∃ row, controlRow true .ldr3c = some row ∧ Instr.ldr3c.inBuild true = true ∧
      row.r1.admits ⟨false, false, false, true, true⟩ = true ∧ row.r2.admits ⟨false, false, false, true, true⟩ = true ∧
      row.r3.admits ⟨false, true, true, true, true⟩ = true) ∧
    (startS.present (.core ⟨true, 3#3, true⟩)).inputs = [.core ⟨true, 3#3, true⟩] :=
  ⟨⟨_, rfl, rfl, rfl, rfl, rfl⟩, ⟨_, rfl, rfl, rfl, rfl, rfl⟩, rfl⟩

/-- KsvMarksGen and KsAfterNopIsNoKeystreamBit: an edge that runs `GEN` (KSV is 1 after it) and one that runs `NOP`. -/
theorem witness_ksv :
    ((startS.present (.core (ports 4#3 true))).nextEdge = .core (ports 4#3 true) ∧
      (after (step (startS.present (.core (ports 4#3 true))))).map State.ksv = some true) ∧
    (startS.present (.core (ports 0#3 true))).nextEdge = .core (ports 0#3 true) ∧ (ports 0#3 true).rst = false ∧
    decodeCmd startS.build.compatR3Overwrite (cmdWord 0#3 true) = .nop := by decide

/-- ErrRecordsReservedSinceReset and ReservedCommandsActAsNops: a reset, a reserved command and a `NOP` in its place. -/
theorem witness_error_runs :
    (withInputs startS [.core ⟨true, 0#3, false⟩, edgeOfInstr .reserved111]).inputs =
      [.core ⟨true, 0#3, false⟩, edgeOfInstr .reserved111] ++ [] ∧
    SameRegs startS startS ∧
    List.Forall₂ (NopForReserved false) [edgeOfInstr .gen, edgeOfInstr .reserved111]
      [edgeOfInstr .gen, edgeOfInstr .nop] :=
  ⟨rfl, ⟨rfl, rfl, rfl⟩, .cons (.inl rfl) (.cons (.inr ⟨rfl, rfl⟩) .nil)⟩

/-- StepKeepsFaultFree: a fault-free state with a command to come, and its step. -/
theorem witness_fault_free :
    ∃ s t : State, s.FaultFree ∧ s.inputs ≠ [] ∧ step s = .next t :=
  ⟨withInputs startS [edgeOfInstr .gen], _,
   ⟨rfl, by intro e he; simp only [withInputs, List.mem_singleton] at he; subst he; rfl⟩, by decide, rfl⟩

/-- ResetIsFaultFree: edges without a reserved command. -/
theorem witness_unreserved_edges : ∀ e ∈ [edgeOfInstr .clr, edgeOfInstr (.load true)], e.runsReserved false = false := by
  decide

/-- SeparateHardwareSharesNothing: an edge at each unit with its step, and two states that agree on the core alone. -/
theorem witness_separate :
    (∃ (s t : State) (p : PrimPorts), s.nextEdge = .prim p ∧ step s = .next t ∧ t.prim ≠ s.prim) ∧
    (∃ (s t : State) (p : CorePorts), s.nextEdge = .core p ∧ step s = .next t) ∧
    SameCore (prim1 0#19) (prim3 5#23) :=
  ⟨⟨startS.present (.prim ⟨false, true, false, false, false, false, 0⟩), _, _, rfl, rfl, by decide⟩,
   ⟨startS.present (.core (ports 1#3 false)), _, _, rfl, rfl⟩, ⟨rfl, rfl, rfl, rfl, rfl⟩⟩

/-- FirstEdgeAfterPowerOn: legal parameters, and a reset edge that comes first. -/
theorem witness_power_on : ∃ (params : Params) (es : List Edge) (p : CorePorts), params.problem = none ∧
    es = .core p :: [] ∧ p.rst = true :=
  ⟨Config.r3, [.core ⟨true, 5#3, true⟩], ⟨true, 5#3, true⟩, by decide, rfl, rfl⟩

/-- ZeroRegistersStayZero: zero registers with a `LOAD 0` to come. -/
theorem witness_zero_stays :
    ∃ s : State, ZeroRegs s ∧ ∀ p, s.nextEdge = .core p → p.rst = false →
      decodeCmd s.build.compatR3Overwrite (cmdWord p.op p.din) ≠ .load true ∧
      decodeCmd s.build.compatR3Overwrite (cmdWord p.op p.din) ≠ .ldr3c := by
  refine ⟨withInputs (small false 0 0 0 false) [edgeOfInstr (.load false)], ⟨rfl, rfl, rfl⟩, ?_⟩
  intro p h _
  cases h
  decide

/-- SessionYieldsTheKeystream and EmptyDataLeavesTheWarmState: the compatibility variant in its build, from registers that
are not zero. -/
theorem witness_session :
    let s := withInputs (small true 5 6 7 false) (edges (session .compat 1#64 2#22 3) ++ [])
    Variant.compat.available s.build = true ∧ s.err = false ∧ s.inputs = edges (session .compat 1#64 2#22 (2 + 1)) ++ [] ∧
    (withInputs s (edges (byteSession .compat 1#64 2#22 0) ++ [])).inputs =
      edges (byteSession .compat 1#64 2#22 0) ++ [] :=
  ⟨rfl, rfl, rfl, rfl⟩

/-- PausesChangeNoRegister: a `NOP` before and after a `GEN`. -/
theorem witness_pauses :
    dropNops startS.build.compatR3Overwrite [edgeOfInstr .nop, edgeOfInstr .gen, edgeOfInstr .nop] =
      dropNops startS.build.compatR3Overwrite [edgeOfInstr .gen] ∧
    (prim3 5#23).build = startS.build ∧ SameRegs startS (prim3 5#23) ∧ (prim3 5#23).err = startS.err :=
  ⟨by decide, rfl, ⟨rfl, rfl, rfl⟩, rfl⟩

/-- NewSessionForgetsTheRegisters: two states with different registers and the same edges to come, after a `CLR` and after
a reset; the bound is met with equality. -/
theorem witness_new_session :
    let a := withInputs startS [edgeOfInstr .clr, edgeOfInstr .gen]
    let b := withInputs (small false 9 9 9 true) [edgeOfInstr .clr, edgeOfInstr .gen]
    let c := withInputs startS [.core ⟨true, 0#3, false⟩, edgeOfInstr .gen]
    b.build.compatR3Overwrite = a.build.compatR3Overwrite ∧ a.build = b.build ∧
    a.inputs = edgeOfInstr .clr :: [edgeOfInstr .gen] ∧ b.inputs = edgeOfInstr .clr :: [edgeOfInstr .gen] ∧
    1 ≤ [edgeOfInstr .gen].length ∧ c.inputs = .core ⟨true, 0#3, false⟩ :: [edgeOfInstr .gen] :=
  ⟨rfl, rfl, rfl, rfl, by decide, rfl⟩

/-- HostByteContract, PseudoInstructionExpansions, HostPresentsTheLowBits: the first and the last index of their ranges. -/
theorem witness_indices :
    0 < [0x48#8, 0x69#8].length ∧ 1 < (combine (fun _ => true) [0x48#8, 0x69#8]).length ∧ 0 < 8 ∧ 7 < 8 ∧
    63 < 64 ∧ 21 < 22 := by decide

/-- OneEdgeForEachCommand: a state with an edge to come. -/
theorem witness_one_edge : (withInputs startS [edgeOfInstr .warm]).inputs = edgeOfInstr .warm :: [] := rfl

/-- AssemblerReadsEveryProgram: two lines that differ in case alone. -/
theorem witness_case : ['G', 'e', 'N'].map Char.toLower = ['g', 'E', 'n'].map Char.toLower := by decide

end Sys2Proof.Tests
end

/-!
SUPPORT. The decoder's range, the effect of each kind of instruction on the status bits, and the step at each kind of
edge; then the statements about the state (10_state.md).
-/

namespace Sys2Proof.Machine

/-! What the decoder can answer. -/

/-- A command word decodes to a command of the core. -/
@[simp] theorem isCommand_decodeCmd (compat : Bool) (cw : CmdWord) : (decodeCmd compat cw).isCommand = true := by
  revert compat cw; decide

/-- A command word decodes to an instruction that exists in the build. -/
@[simp] theorem inBuild_decodeCmd (compat : Bool) (cw : CmdWord) : (decodeCmd compat cw).inBuild compat = true := by
  revert compat cw; decide

/-- A control vector decodes to an operation of a primitive. -/
@[simp] theorem isCommand_decodeCtrl (pc : CtrlVec) (ldVal : Nat) : (decodeCtrl pc ldVal).isCommand = false := by
  unfold decodeCtrl
  repeat' split
  all_goals rfl

/-! What the kinds of instructions do. -/

/-- A reserved command is `State.reserved`, whichever of the three it is (41_keystream_core.md R75). -/
theorem exec_of_isReserved {i : Instr} (h : i.isReserved = true) (s : State) : exec i s = .next s.reserved := by
  cases i with
  | reserved101 | reserved110 | reserved111 => rfl
  | _ => cases h

/-- An operation of a primitive replaces the stand-alone primitive's register and nothing else. -/
theorem exec_of_not_isCommand {i : Instr} (h : i.isCommand = false) (s : State) :
    ∃ f, exec i s = .next (s.onPrim f) := by
  cases i with
  | pClear | pLoad | pHold | pShiftU | pShiftG => exact ⟨_, rfl⟩
  | _ => cases h

/-- `LDR3C` in the compatibility build (R74). -/
theorem exec_ldr3c_of_compat {s : State} (h : s.build.compatR3Overwrite = true) :
    exec .ldr3c s = .next (s.overwriteR3.setKsv false) :=
  if_pos h

/-- A command that is not reserved writes `KSV` by whether it is `GEN`, and keeps `ERR` (10_state.md R21, R22). -/
theorem exec_of_isCommand_not_isReserved {i : Instr} {s : State} (hc : i.isCommand = true)
    (hr : i.isReserved = false) (hb : i.inBuild s.build.compatR3Overwrite = true) :
    ∃ t, exec i s = .next t ∧ (t.ksv = true ↔ i = .gen) ∧ t.err = s.err := by
  cases i with
  | nop | clr | load | warm | gen => exact ⟨_, rfl, by simp, rfl⟩
  | ldr3c => exact ⟨_, exec_ldr3c_of_compat hb, by simp, rfl⟩
  | reserved101 | reserved110 | reserved111 => cases hr
  | pClear | pLoad | pHold | pShiftU | pShiftG => cases hc

/-- Every command of the build goes on: `KSV` marks `GEN`, and `ERR` collects the reserved commands. -/
theorem exec_of_isCommand {i : Instr} {s : State} (hc : i.isCommand = true)
    (hb : i.inBuild s.build.compatR3Overwrite = true) :
    ∃ t, exec i s = .next t ∧ (t.ksv = true ↔ i = .gen) ∧ t.err = (s.err || i.isReserved) := by
  cases hr : i.isReserved with
  | true =>
    have hgen : i ≠ .gen := by rintro rfl; cases hr
    exact ⟨s.reserved, exec_of_isReserved hr s, by simp [hgen], by simp⟩
  | false => simpa using exec_of_isCommand_not_isReserved hc hr hb

/-! The step at each kind of edge (70_reset_and_hazards.md R108). -/

/-- A core edge with `rst = 1`. -/
theorem step_core_rst {s : State} {p : CorePorts} (he : s.nextEdge = .core p) (hr : p.rst = true) :
    step s = .next s.takeEdge.resetCore := by
  simp [step, he, edgeAction, hr]

/-- A core edge with `rst = 0`. -/
theorem step_core_cmd {s : State} {p : CorePorts} (he : s.nextEdge = .core p) (hr : p.rst = false) :
    step s = exec (decodeCmd s.build.compatR3Overwrite p.word) s.takeEdge :=
  step_run (by simp [he, edgeAction, hr, decode])

/-- An edge of the primitive, reset or operation, replaces its register and takes the edge. -/
theorem step_prim {s : State} {p : PrimPorts} (he : s.nextEdge = .prim p) :
    ∃ f, step s = .next (s.takeEdge.onPrim f) := by
  cases hr : p.rst with
  | true => exact ⟨fun _ => 0#_, by simp [step, he, edgeAction, hr, State.resetPrim]⟩
  | false =>
    have hrun : edgeAction s.build.compatR3Overwrite s.nextEdge = .run (decodeCtrl p.vector p.ldVal) := by
      simp [he, edgeAction, hr, decode]
    rw [step_run hrun]
    exact exec_of_not_isCommand (isCommand_decodeCtrl ..) _

/-- What the command decoded at a core edge with `rst = 0` does to the status bits. -/
theorem step_core_cmd_status {s : State} {p : CorePorts} (he : s.nextEdge = .core p) (hr : p.rst = false) :
    ∃ t, step s = .next t ∧ (t.ksv = true ↔ decodeCmd s.build.compatR3Overwrite p.word = .gen) ∧
      t.err = (s.err || (decodeCmd s.build.compatR3Overwrite p.word).isReserved) := by
  rw [step_core_cmd he hr]
  exact exec_of_isCommand (isCommand_decodeCmd ..) (inBuild_decodeCmd ..)

/-! The combiner. -/

/-- `ks` is the XOR of the three top bits (41_keystream_core.md R66). -/
theorem State.ks_eq (s : State) : s.ks = (s.r1.getLsbD 18 ^^ s.r2.getLsbD 21 ^^ s.r3.getLsbD 22) := rfl

end Sys2Proof.Machine

namespace Sys2Proof.Proofs

open Sys2Proof.Machine

/-- Settles O1: the fields of `State.reset` are the values of R27. -/
theorem resetStateValues : Obligations.ResetStateValues := ⟨rfl, rfl, rfl, rfl, rfl⟩

/-- Settles O33: the configuration of R6 gives the indices of R19 and R20, and the ports read the state. -/
theorem outputsReadTheState : Obligations.OutputsReadTheState := by
  intro s
  exact ⟨rfl, rfl, rfl, rfl, rfl, rfl, by rw [State.outputs, State.ks_eq], rfl, rfl, rfl⟩

/-- Settles O34, by whether the edge resets the core; otherwise the command decoded is one of the build, and it leaves
KSV at 1 only if it is `GEN`. -/
theorem ksvMarksGen : Obligations.KsvMarksGen := by
  intro s p he
  cases hr : p.rst with
  | true => exact ⟨s.takeEdge.resetCore, step_core_rst he hr, by simp, by simp⟩
  | false =>
    obtain ⟨t, hstep, hksv, -⟩ := step_core_cmd_status he hr
    refine ⟨t, hstep, hksv.trans (by simp [CorePorts.word]), fun hk => ⟨?_, t.ks_eq⟩⟩
    rw [← hksv.mp hk, ← step_core_cmd he hr, hstep]

/-- Settles O35, by the kind of edge: the primitive's edges and the unreserved commands keep ERR, a reserved command
sets it, and a reset of the core clears it. -/
theorem errIsSticky : Obligations.ErrIsSticky := by
  intro s
  cases he : s.nextEdge with
  | prim p =>
    obtain ⟨f, hstep⟩ := step_prim he
    exact ⟨_, hstep, by simp [Edge.resetsCore, Edge.runsReserved]⟩
  | core p =>
    cases hr : p.rst with
    | true => exact ⟨_, step_core_rst he hr, by simp [Edge.resetsCore, hr]⟩
    | false =>
      obtain ⟨t, hstep, -, herr⟩ := step_core_cmd_status he hr
      exact ⟨t, hstep, by simp [herr, Edge.resetsCore, Edge.runsReserved, hr]⟩

end Sys2Proof.Proofs

/-!
SUPPORT. The opcode map and the control-vector table row by row, what does not read `din`, and the command words of lists
of instructions; then the statements about the encoding (30_encoding.md).
-/

namespace Sys2Proof.Machine

/-! The opcode map (30_encoding.md R42): one equation for each row, whatever `din`. -/

@[simp] theorem decodeCmd_op000 (compat din : Bool) : decodeCmd compat (cmdWord 0b000#3 din) = .nop := by
  simp [decodeCmd]

@[simp] theorem decodeCmd_op001 (compat din : Bool) : decodeCmd compat (cmdWord 0b001#3 din) = .clr := by
  simp [decodeCmd]

@[simp] theorem decodeCmd_op010 (compat din : Bool) : decodeCmd compat (cmdWord 0b010#3 din) = .load din := by
  simp [decodeCmd]

@[simp] theorem decodeCmd_op011 (compat din : Bool) : decodeCmd compat (cmdWord 0b011#3 din) = .warm := by
  simp [decodeCmd]

@[simp] theorem decodeCmd_op100 (compat din : Bool) : decodeCmd compat (cmdWord 0b100#3 din) = .gen := by
  simp [decodeCmd]

@[simp] theorem decodeCmd_op101 (compat din : Bool) :
    decodeCmd compat (cmdWord 0b101#3 din) = if compat then .ldr3c else .reserved101 := by
  simp [decodeCmd]

@[simp] theorem decodeCmd_op110 (compat din : Bool) : decodeCmd compat (cmdWord 0b110#3 din) = .reserved110 := by
  simp [decodeCmd]

@[simp] theorem decodeCmd_op111 (compat din : Bool) : decodeCmd compat (cmdWord 0b111#3 din) = .reserved111 := by
  simp [decodeCmd]

/-! The data bit (30_encoding.md R43). -/

/-- The decoder reads `din` for the opcode of `LOAD` alone. -/
theorem decodeCmd_cmdWord_of_ne_load {op : Opcode} (hop : op ≠ 0b010#3) (compat din din' : Bool) :
    decodeCmd compat (cmdWord op din) = decodeCmd compat (cmdWord op din') := by
  have hop' : op.toNat ≠ 2 := fun h => hop (BitVec.eq_of_toNat_eq h)
  simp only [decodeCmd, opField_cmdWord]
  split
  case h_3 h => exact absurd h hop'
  all_goals rfl

/-- So what a core edge does depends on `din` for that opcode alone. -/
theorem edgeAction_core_of_ne_load {op : Opcode} (hop : op ≠ 0b010#3) (compat rst din din' : Bool) :
    edgeAction compat (.core ⟨rst, op, din⟩) = edgeAction compat (.core ⟨rst, op, din'⟩) := by
  simp only [edgeAction, decode, CorePorts.word, decodeCmd_cmdWord_of_ne_load hop compat din din']

/-- A step reads of the next edge only the action it stands for. -/
theorem step_withInputs_of_edgeAction_eq {s : State} {e e' : Edge} (es : List Edge)
    (h : edgeAction s.build.compatR3Overwrite e = edgeAction s.build.compatR3Overwrite e') :
    step (Claims.withInputs s (e :: es)) = step (Claims.withInputs s (e' :: es)) := by
  simp only [step, State.nextEdge, State.takeEdge, Claims.withInputs, List.headD_cons, List.tail_cons, h]

/-- The encoder gives `din = 0` to every command but `LOAD`. -/
theorem getLsbD_zero_of_commandWord? {i : Instr} {cw : CmdWord} (hload : ∀ b, i ≠ .load b)
    (h : commandWord? i = some cw) : cw.getLsbD 0 = false := by
  cases i with
  | load b => exact absurd rfl (hload b)
  | pClear | pLoad | pHold | pShiftU | pShiftG => cases h
  | nop | clr | warm | gen | ldr3c | reserved101 | reserved110 | reserved111 =>
    rw [← Option.some.inj h]
    exact dinField_cmdWord _ false

/-! The control-vector table (30_encoding.md R46). -/

/-- The decoder of a control vector in terms of its five signals. -/
theorem decodeCtrl_ctrlVec (clr ld en mode ib : Bool) (v : Nat) :
    decodeCtrl (ctrlVec clr ld en mode ib) v =
      if clr then .pClear else if ld then .pLoad v else if !en then .pHold
      else if !mode then .pShiftU ib else .pShiftG ib := by
  obtain ⟨hclr, hld, hen, hmode, hib⟩ := getLsbD_ctrlVec clr ld en mode ib
  rw [decodeCtrl, hclr, hld, hen, hmode, hib]

end Sys2Proof.Machine

namespace Sys2Proof.Session

/-! The words of the pseudo-instructions (30_encoding.md R48). -/

/-- The words of a repeated instruction are its word repeated. -/
theorem filterMap_commandWord?_replicate {i : Instr} {cw : CmdWord} (h : commandWord? i = some cw) (n : Nat) :
    (List.replicate n i).filterMap commandWord? = List.replicate n cw :=
  List.filterMap_replicate_of_some h

/-- The words of the `LOAD`s of some bits are the words of `LOAD`, one a bit. -/
theorem filterMap_commandWord?_loads (bits : List Bool) :
    (loads bits).filterMap commandWord? = bits.map (cmdWord 0b010#3) := by
  rw [loads, List.filterMap_map]
  exact congrFun List.filterMap_eq_map bits

/-- The word of `LOAD b` (R42). -/
theorem cmdWord_load (b : Bool) : cmdWord 0b010#3 b = if b then 0x5#4 else 0x4#4 := by
  cases b <;> rfl

theorem words_idle (n : Nat) : words (.idle n) = List.replicate n 0x0#4 := filterMap_commandWord?_replicate rfl n

theorem words_genN (n : Nat) : words (.genN n) = List.replicate n 0x8#4 := filterMap_commandWord?_replicate rfl n

theorem words_warmup : words .warmup = List.replicate 100 0x6#4 := filterMap_commandWord?_replicate rfl 100

theorem words_genByte : words .genByte = List.replicate 8 0x8#4 := filterMap_commandWord?_replicate rfl 8

theorem words_loadK (k : SessionKey) :
    words (.loadK k) = (List.range 64).map fun i => cmdWord 0b010#3 (k.getLsbD i) :=
  (filterMap_commandWord?_loads _).trans List.map_map

theorem words_loadF (f : FrameCounter) :
    words (.loadF f) = (List.range 22).map fun i => cmdWord 0b010#3 (f.getLsbD i) :=
  (filterMap_commandWord?_loads _).trans List.map_map

theorem words_init (k : SessionKey) (f : FrameCounter) :
    words (.init k f) = [0x2#4] ++ words (.loadK k) ++ words (.loadF f) ++ words .warmup := by
  have hclr : commandWord? .clr = some 0x2#4 := rfl
  simp [words, expand, hclr]

theorem words_initC (k : SessionKey) (f : FrameCounter) :
    words (.initC k f) = [0x2#4] ++ words (.loadK k) ++ words (.loadF f) ++ [0xA#4] ++ words .warmup := by
  have hclr : commandWord? .clr = some 0x2#4 := rfl
  have hldr3c : commandWord? .ldr3c = some 0xA#4 := rfl
  simp [words, expand, hclr, hldr3c]

end Sys2Proof.Session

namespace Sys2Proof.Assembler

open Sys2Proof.Session

/-- What a mnemonic without operand assembles to: the words of instructions of which none is a `LOAD`
(30_encoding.md R47, R48). -/
theorem assembleBare_ok {m : List Char} {ws : List CmdWord} (h : assembleBare m = .ok ws) :
    ∃ is : List Instr, (∀ i ∈ is, ∀ b, i ≠ .load b) ∧ ws = is.filterMap commandWord? := by
  unfold assembleBare at h
  split_ifs at h <;> obtain rfl := Except.ok.inj h
  · exact ⟨[.nop], by simp, rfl⟩
  · exact ⟨[.clr], by simp, rfl⟩
  · exact ⟨[.warm], by simp, rfl⟩
  · exact ⟨[.gen], by simp, rfl⟩
  · exact ⟨[.ldr3c], by simp, rfl⟩
  · exact ⟨expand .warmup, by simp [expand, warmups], rfl⟩
  · exact ⟨expand .genByte, by simp [expand], rfl⟩

end Sys2Proof.Assembler

namespace Sys2Proof.Proofs

open Sys2Proof.Machine Sys2Proof.Session Sys2Proof.Assembler

/-- Settles O7: the sixteen words are the rows of the opcode map, each with `din` 0 and 1. -/
theorem opcodeMapWords : Obligations.OpcodeMapWords := fun compat =>
  ⟨decodeCmd_op000 compat false, decodeCmd_op000 compat true,
   decodeCmd_op001 compat false, decodeCmd_op001 compat true,
   decodeCmd_op010 compat false, decodeCmd_op010 compat true,
   decodeCmd_op011 compat false, decodeCmd_op011 compat true,
   decodeCmd_op100 compat false, decodeCmd_op100 compat true,
   decodeCmd_op101 true false, decodeCmd_op101 true true,
   decodeCmd_op101 false false, decodeCmd_op101 false true,
   decodeCmd_op110 compat false, decodeCmd_op110 compat true,
   decodeCmd_op111 compat false, decodeCmd_op111 compat true⟩

/-- Settles O8: the decoder reads `din` for `LOAD` alone, so does a step; the encoder gives `din = 0` to every other
command, and a mnemonic without operand assembles to words of the encoder. -/
theorem dataBitIsIgnored : Obligations.DataBitIsIgnored := by
  refine ⟨?step, ?decoder, ?encoder, ?assembler⟩
  case step =>
    intro s es rst din din' op hop
    exact step_withInputs_of_edgeAction_eq es (edgeAction_core_of_ne_load hop _ rst din din')
  case decoder =>
    intro compat op hop
    exact decodeCmd_cmdWord_of_ne_load hop compat true false
  case encoder =>
    intro i cw hload hcw
    exact getLsbD_zero_of_commandWord? hload hcw
  case assembler =>
    intro m ws hm w hw
    obtain ⟨is, hload, rfl⟩ := assembleBare_ok hm
    obtain ⟨i, hi, hiw⟩ := List.mem_filterMap.mp hw
    exact getLsbD_zero_of_commandWord? (hload i hi) hiw

/-- Settles O10, by the five rows of the table. -/
theorem controlVectorTable : Obligations.ControlVectorTable := by
  intro clr ld en mode ib v
  rw [decodeCtrl_ctrlVec]
  match clr, ld, en, mode with
  | true, _, _, _ => rfl
  | false, true, _, _ => rfl
  | false, false, false, _ => rfl
  | false, false, true, false => rfl
  | false, false, true, true => rfl

/-- Settles O54: the words of each expansion, and from them the counts 187 = 1 + 64 + 22 + 100 and 188. -/
theorem pseudoInstructionExpansions : Obligations.PseudoInstructionExpansions := by
  refine ⟨fun n => ⟨words_idle n, words_genN n⟩, words_warmup, words_genByte, ?loadK, ?loadF, ?init⟩
  case loadK =>
    intro k
    rw [words_loadK]
    exact ⟨by simp, fun i hi => by simp [hi, cmdWord_load]⟩
  case loadF =>
    intro f
    rw [words_loadF]
    exact ⟨by simp, fun i hi => by simp [hi, cmdWord_load]⟩
  case init =>
    intro k f
    refine ⟨words_init k f, words_initC k f, ?_, ?_⟩
    · rw [words_init, words_loadK, words_loadF, words_warmup]; simp
    · rw [words_initC, words_loadK, words_loadF, words_warmup]; simp

end Sys2Proof.Proofs

/-!
SUPPORT. The legality of a primitive's parameters, the feedback and the shift in the statements' own terms (the counted
parity of the taps, the register bit by bit), and each operation of a primitive as a new value of its register; then the
statements about the shift-register primitive (40_shift_register.md).
-/

namespace Sys2Proof

/-! Legal parameters (40_shift_register.md R50). -/

/-- The check for a repeated tap is the library's `Nodup`. -/
theorem noRepeat_iff_nodup (ts : List Nat) : noRepeat ts = true ↔ ts.Nodup := by
  induction ts with
  | nil => simp [noRepeat]
  | cons t ts ih => simp [noRepeat, ih]

/-- The parameters pass the check exactly if they meet R50's four conditions. -/
theorem Params.problem_eq_none_iff (p : Params) :
    p.problem = none ↔ 1 ≤ p.len ∧ p.ci < p.len ∧ (∀ t ∈ p.taps, t < p.len) ∧ p.taps.Nodup := by
  rw [← noRepeat_iff_nodup]
  simp only [Params.problem, Bool.not_eq_true', ← Bool.not_eq_true, List.all_eq_true, decide_eq_true_eq]
  split_ifs with hlen hci htap hrep
  · exact iff_of_false nofun fun ⟨h, _⟩ => by omega
  · exact iff_of_true rfl ⟨by omega, hci, htap, hrep⟩
  · exact iff_of_false nofun fun ⟨_, _, _, h⟩ => hrep h
  · exact iff_of_false nofun fun ⟨_, _, h, _⟩ => htap h
  · exact iff_of_false nofun fun ⟨_, h, _⟩ => hci h

end Sys2Proof

namespace Sys2Proof.Machine

open Sys2Proof.Claims

/-- A primitive exists exactly for parameters that pass the check, whatever its register holds. -/
theorem exists_prim_params_iff (p : Params) : (∃ q : Prim, q.params = p) ↔ p.problem = none :=
  ⟨fun ⟨q, hq⟩ => hq ▸ q.legal, fun h => ⟨{ params := p, legal := h, q := 0#_ }, rfl⟩⟩

/-! Feedback (40_shift_register.md R54). -/

/-- One more tap flips the counted parity by its bit. -/
theorem tapParity_cons {n : Nat} (t : Nat) (ts : List Nat) (q : BitVec n) :
    tapParity (t :: ts) q = (q.getLsbD t ^^ tapParity ts q) := by
  have hparity : ∀ k : Nat, decide ((k + 1) % 2 = 1) = !decide (k % 2 = 1) := by
    intro k; rw [← decide_not]; exact decide_eq_decide.mpr (by omega)
  cases ht : q.getLsbD t with
  | false => simp [tapParity, ht]
  | true => simp [tapParity, ht, hparity]

/-- The feedback is the parity of the count of tap bits that are 1. -/
theorem feedback_eq_tapParity {n : Nat} (taps : List Nat) (q : BitVec n) : feedback taps q = tapParity taps q := by
  induction taps with
  | nil => rfl
  | cons t ts ih => rw [feedback_cons, tapParity_cons, ih]

/-- The feedback of R1 is the XOR that the spec writes out. -/
theorem feedback_r1 (q : R1Bits) : feedback Config.r1.taps q = fb1 q := by
  simp [Config.r1, feedback_cons, fb1]

/-- The feedback of R2 is the XOR that the spec writes out. -/
theorem feedback_r2 (q : R2Bits) : feedback Config.r2.taps q = fb2 q := by
  simp [Config.r2, feedback_cons, fb2]

/-- The feedback of R3 is the XOR that the spec writes out. -/
theorem feedback_r3 (q : R3Bits) : feedback Config.r3.taps q = fb3 q := by
  simp [Config.r3, feedback_cons, fb3]

/-! Shift (40_shift_register.md R55). -/

/-- A shift is the spec's shift bit by bit. -/
theorem shifted_shift {n : Nat} (q : BitVec n) (b : Bool) : Shifted q (shift q b) b := by
  intro i hi
  rw [getLsbD_shift, decide_eq_true hi, Bool.true_and]

/-- A register of one bit becomes the new bit. -/
theorem shift_length_one (q : BitVec 1) (b : Bool) : shift q b = BitVec.ofBool b := by
  apply BitVec.eq_of_getLsbD_eq
  intro i hi
  obtain rfl : i = 0 := by omega
  rw [shifted_shift q b 0 hi]
  simp

/-- The shift as a number, compared bit by bit. -/
theorem toNat_shift {n : Nat} (q : BitVec n) (b : Bool) (hn : 1 ≤ n) :
    (shift q b).toNat = ((q.toNat <<< 1) % 2 ^ n) ||| b.toNat := by
  apply Nat.eq_of_testBit_eq
  intro i
  rw [← BitVec.getLsbD, getLsbD_shift, Nat.testBit_or, Nat.testBit_mod_two_pow, Nat.testBit_shiftLeft,
    Nat.testBit_bool_toNat]
  cases i with
  | zero => simp [Nat.lt_of_succ_le hn]
  | succ i => simp [BitVec.getLsbD]

/-! The two clock modes (40_shift_register.md R57, R58). -/

/-- The unconditional clock shifts in the tap parity XOR the input bit. -/
theorem shifted_shiftU {n : Nat} (taps : List Nat) (q : BitVec n) (b : Bool) :
    Shifted q (shiftU taps q b) (tapParity taps q ^^ b) := by
  rw [← feedback_eq_tapParity]
  exact shifted_shift q _

/-- On agreement with the clocking bit the gated clock shifts in the tap parity alone. -/
theorem shifted_shiftG {n : Nat} {ci : Nat} {q : BitVec n} {b : Bool} (taps : List Nat) (h : clockBit ci q = b) :
    Shifted q (shiftG ci taps q b) (tapParity taps q) := by
  rw [shiftG_agree ci taps q b h]
  simpa using shifted_shiftU taps q false

/-! The rows of the control-vector table (30_encoding.md R46) that name the operations below. -/

@[simp] theorem decodeCtrl_hold (mode ib : Bool) (v : Nat) :
    decodeCtrl (ctrlVec false false false mode ib) v = .pHold := by
  rw [decodeCtrl_ctrlVec]; rfl

@[simp] theorem decodeCtrl_shiftU (ib : Bool) (v : Nat) :
    decodeCtrl (ctrlVec false false true false ib) v = .pShiftU ib := by
  rw [decodeCtrl_ctrlVec]; rfl

@[simp] theorem decodeCtrl_shiftG (ib : Bool) (v : Nat) :
    decodeCtrl (ctrlVec false false true true ib) v = .pShiftG ib := by
  rw [decodeCtrl_ctrlVec]; rfl

@[simp] theorem decodeCtrl_clear (ld en mode ib : Bool) (v : Nat) :
    decodeCtrl (ctrlVec true ld en mode ib) v = .pClear := by
  rw [decodeCtrl_ctrlVec]; rfl

/-! Each operation of the primitive is another value in its register and nothing else (40_shift_register.md R56 to
R60). -/

theorem exec_pHold (s : State) : exec .pHold s = .next s := rfl

theorem exec_pClear (s : State) : exec .pClear s = .next (withQ s 0#_) := rfl

theorem exec_pShiftU (b : Bool) (s : State) :
    exec (.pShiftU b) s = .next (withQ s (shiftU s.prim.params.taps s.prim.q b)) := rfl

theorem exec_pShiftG (b : Bool) (s : State) :
    exec (.pShiftG b) s = .next (withQ s (shiftG s.prim.params.ci s.prim.params.taps s.prim.q b)) := rfl

end Sys2Proof.Machine

namespace Sys2Proof.Proofs

open Sys2Proof.Machine Sys2Proof.Claims

/-- Settles O19: R50's conditions are what the check tests, and a `Prim` carries the proof that its parameters pass. -/
theorem illegalInstancesAreNotBuilt : Obligations.IllegalInstancesAreNotBuilt := fun p =>
  ⟨p.problem_eq_none_iff, (exists_prim_params_iff p).trans p.problem_eq_none_iff⟩

/-- Settles O21: the feedback is the counted parity, by induction on the taps. -/
theorem feedbackIsTheTapParity : Obligations.FeedbackIsTheTapParity :=
  ⟨fun _ => feedback_eq_tapParity, fun _ => feedback_nil, feedback_r1, feedback_r2, feedback_r3⟩

/-- Settles O22: the shift by index, at length 1, and as a number. -/
theorem shiftMovesTowardTheTop : Obligations.ShiftMovesTowardTheTop :=
  ⟨fun _ => shifted_shift, shift_length_one, fun _ => toNat_shift⟩

/-- Settles O24: the register becomes its unconditional clock, which keeps zero under 0; without taps the parity
is 0. -/
theorem pShiftuAlwaysShifts : Obligations.PShiftuAlwaysShifts := by
  refine ⟨decodeCtrl_shiftU, fun b s => ⟨_, exec_pShiftU b s, shifted_shiftU _ _ b, ?zero, ?noTaps⟩⟩
  case zero =>
    rintro hq rfl
    rw [hq, shiftU_zero]
  case noTaps =>
    intro htaps
    simpa [htaps, tapParity] using shifted_shiftU s.prim.params.taps s.prim.q b

/-- Settles O25: the register becomes its gated clock, which shifts on agreement, holds otherwise, and keeps zero. -/
theorem pShiftgShiftsOnAgreement : Obligations.PShiftgShiftsOnAgreement := by
  refine ⟨decodeCtrl_shiftG, fun b s => ⟨_, exec_pShiftG b s, shifted_shiftG _, shiftG_hold _ _ _ b, ?zero⟩⟩
  case zero =>
    intro hq
    rw [hq, shiftG_zero]

/-- Settles O23: the row `0,0,0,x,x`, and the register kept. -/
theorem pHoldKeepsTheRegister : Obligations.PHoldKeepsTheRegister := ⟨decodeCtrl_hold, exec_pHold⟩

/-- Settles O27: the row `1,x,x,x,x`, and the register cleared. -/
theorem pClearZeroesTheRegister : Obligations.PClearZeroesTheRegister := ⟨decodeCtrl_clear, exec_pClear⟩

end Sys2Proof.Proofs

/-!
SUPPORT. The commands of the core as updates of the state, the two ways the three registers are clocked together in the
statements' own terms, runs of `NOP`, and what the entries of R67's table make a primitive do; then the statements
about the commands and the control vectors (41_keystream_core.md).
-/

namespace Sys2Proof.Machine

open Sys2Proof.Claims

/-! The commands that are not reserved (41_keystream_core.md R69 to R74; `LDR3C` of the compatibility build is
`exec_ldr3c_of_compat`). -/

theorem exec_nop (s : State) : exec .nop s = .next (s.setKsv false) := rfl

theorem exec_clr (s : State) : exec .clr s = .next (s.clearRegs.setKsv false) := rfl

theorem exec_load (b : Bool) (s : State) : exec (.load b) s = .next ((s.clockU b).setKsv false) := rfl

theorem exec_warm (s : State) : exec .warm s = .next (s.clockG.setKsv false) := rfl

theorem exec_gen (s : State) : exec .gen s = .next (s.clockG.setKsv true) := rfl

/-- `LDR3C` is reserved in the default build (R74, R75). -/
theorem exec_ldr3c_of_default {s : State} (h : s.build.compatR3Overwrite = false) :
    exec .ldr3c s = .next s.reserved :=
  if_neg (by simp [h])

/-! All three registers in UNCONDITIONAL mode (R71). -/

theorem State.clockU_r1_shifted (b : Bool) (s : State) : Shifted s.r1 (s.clockU b).r1 (fb1 s.r1 ^^ b) := by
  rw [← feedback_r1]; exact shifted_shift s.r1 _

theorem State.clockU_r2_shifted (b : Bool) (s : State) : Shifted s.r2 (s.clockU b).r2 (fb2 s.r2 ^^ b) := by
  rw [← feedback_r2]; exact shifted_shift s.r2 _

theorem State.clockU_r3_shifted (b : Bool) (s : State) : Shifted s.r3 (s.clockU b).r3 (fb3 s.r3 ^^ b) := by
  rw [← feedback_r3]; exact shifted_shift s.r3 _

/-! All three registers in MAJORITY_GATED mode (R72, R73): a register whose clocking bit is the majority shifts in its
own feedback, and another holds. -/

theorem State.clockG_r1_shifted {s : State} (h : s.r1.getLsbD 8 = s.maj) : Shifted s.r1 s.clockG.r1 (fb1 s.r1) := by
  rw [← feedback_r1, feedback_eq_tapParity]; exact shifted_shiftG _ h

theorem State.clockG_r2_shifted {s : State} (h : s.r2.getLsbD 10 = s.maj) : Shifted s.r2 s.clockG.r2 (fb2 s.r2) := by
  rw [← feedback_r2, feedback_eq_tapParity]; exact shifted_shiftG _ h

theorem State.clockG_r3_shifted {s : State} (h : s.r3.getLsbD 10 = s.maj) : Shifted s.r3 s.clockG.r3 (fb3 s.r3) := by
  rw [← feedback_r3, feedback_eq_tapParity]; exact shifted_shiftG _ h

theorem State.clockG_r1_of_ne {s : State} (h : s.r1.getLsbD 8 ≠ s.maj) : s.clockG.r1 = s.r1 := shiftG_hold _ _ _ _ h

theorem State.clockG_r2_of_ne {s : State} (h : s.r2.getLsbD 10 ≠ s.maj) : s.clockG.r2 = s.r2 := shiftG_hold _ _ _ _ h

theorem State.clockG_r3_of_ne {s : State} (h : s.r3.getLsbD 10 ≠ s.maj) : s.clockG.r3 = s.r3 := shiftG_hold _ _ _ _ h

/-- The majority of a state's clocking bits in the two-of-three form (R64). -/
theorem State.maj_eq_majOf (s : State) : s.maj = majOf s := majority_eq _ _ _

/-- The gated clock is the spec's round, whatever is written to `KSV` with it. -/
theorem gatedRound_clockG (s : State) (k : Bool) : GatedRound s (s.clockG.setKsv k) := by
  rw [GatedRound, ← s.maj_eq_majOf]
  refine ⟨?r1, ?r2, ?r3⟩
  case r1 => split; exacts [State.clockG_r1_shifted ‹_›, State.clockG_r1_of_ne ‹_›]
  case r2 => split; exacts [State.clockG_r2_shifted ‹_›, State.clockG_r2_of_ne ‹_›]
  case r3 => split; exacts [State.clockG_r3_shifted ‹_›, State.clockG_r3_of_ne ‹_›]

/-- The majority as a number is the sum of the three bits halved. -/
theorem toNat_majority (c1 c2 c3 : Bool) :
    (majority c1 c2 c3).toNat = (c1.toNat + c2.toNat + c3.toNat) >>> 1 := by
  cases c1 <;> cases c2 <;> cases c3 <;> rfl

/-- The majority is 1 exactly if at least two of the three bits are. -/
theorem majority_eq_true_iff (c1 c2 c3 : Bool) :
    majority c1 c2 c3 = true ↔ 2 ≤ c1.toNat + c2.toNat + c3.toNat := by
  rw [← Bool.toNat_eq_one, toNat_majority, Nat.shiftRight_eq_div_pow]
  have h1 := c1.toNat_le; have h2 := c2.toNat_le; have h3 := c3.toNat_le
  omega

/-! Zero registers (40_shift_register.md R62 (f)). -/

theorem zeroRegs_clockU {s : State} (h : ZeroRegs s) : ZeroRegs (s.clockU false) := by
  obtain ⟨h1, h2, h3⟩ := h
  simp [ZeroRegs, h1, h2, h3]

theorem zeroRegs_clockG {s : State} (h : ZeroRegs s) : ZeroRegs s.clockG := by
  obtain ⟨h1, h2, h3⟩ := h
  simp [ZeroRegs, h1, h2, h3]

/-- The combiner of zero registers. -/
theorem ks_of_zeroRegs {s : State} (h : ZeroRegs s) : s.ks = false := by
  obtain ⟨h1, h2, h3⟩ := h
  simp [State.ks_eq, h1, h2, h3]

/-- While `KSV` is 1 the readable bit is the XOR of the three top bits. -/
theorem State.keystreamBit?_of_ksv {s : State} (h : s.ksv = true) :
    s.keystreamBit? = some (s.r1.getLsbD 18 ^^ s.r2.getLsbD 21 ^^ s.r3.getLsbD 22) := by
  rw [State.keystreamBit?, if_pos h, State.ks_eq]

/-! Runs of `NOP` (R69). -/

/-- The edge that presents `NOP` runs it in both builds. -/
theorem edgeAction_nop (compat : Bool) : edgeAction compat (edgeOfInstr .nop) = .run .nop :=
  (edgeAction_edgeOfEncoded compat _).trans (congrArg Action.run (decodeCmd_op000 compat false))

/-- A step at an edge that presents `NOP`. -/
theorem step_nop {s : State} {es : List Edge} (h : s.inputs = edgeOfInstr .nop :: es) :
    step s = .next { s with ksv := false, inputs := es } := by
  have hnext : s.nextEdge = edgeOfInstr .nop := by rw [State.nextEdge, h, List.headD_cons]
  rw [step_run (hnext ▸ edgeAction_nop _), exec_nop, State.takeEdge, h]
  rfl

/-- Any number of `NOP`s takes their edges and writes nothing but `KSV`. -/
theorem run_nops (n : Nat) (s : State) (rest : List Edge)
    (h : s.inputs = List.replicate n (edgeOfInstr .nop) ++ rest) :
    ∃ ksv, Host.Core.run core n s = .next { s with ksv := ksv, inputs := rest } := by
  induction n generalizing s with
  | zero =>
    obtain rfl : s.inputs = rest := h
    exact ⟨s.ksv, run_zero s⟩
  | succ n ih =>
    rw [run_succ_of_step (step_nop h)]
    exact ih { s with ksv := false, inputs := _ } rfl

/-! What a primitive does with a control vector that an entry of R67's table admits. -/

section Entries

variable {n : Nat} {p : Params} {c : Control} (v q : BitVec n)

/-- The `ld` input tied to 0 (R63) agrees with every entry that does not ask for `ld = 1`. -/
theorem admits_ld_false {e : ControlPattern} (hld : e.ld ≠ some true) (h : e.admits c = true) :
    e.admits { c with ld := false } = true := by
  have hfalse : agrees e.ld false = true :=
    match e.ld, hld with
    | none, _ => rfl
    | some false, _ => rfl
    | some true, hld => absurd rfl hld
  simp only [ControlPattern.admits, Bool.and_eq_true] at h ⊢
  obtain ⟨⟨⟨⟨hclr, -⟩, hen⟩, hmode⟩, hib⟩ := h
  exact ⟨⟨⟨⟨hclr, hfalse⟩, hen⟩, hmode⟩, hib⟩

theorem primEdge_of_admits_hold (h : ControlPattern.hold.admits c = true) : primEdge p false c v q = q := by
  obtain ⟨hclr, hld, hen⟩ : c.clr = false ∧ c.ld = false ∧ c.en = false := by
    simpa [ControlPattern.admits, ControlPattern.hold, agrees, and_assoc] using h
  exact primEdge_hold p c v q hclr hld hen

theorem primEdge_of_admits_clear (h : ControlPattern.clear.admits c = true) : primEdge p false c v q = 0#n := by
  have hclr : c.clr = true := by simpa [ControlPattern.admits, ControlPattern.clear, agrees] using h
  exact primEdge_clr p c v q hclr

theorem primEdge_of_admits_parallelLoad (h : ControlPattern.parallelLoad.admits c = true) :
    primEdge p false c v q = v := by
  obtain ⟨hclr, hld⟩ : c.clr = false ∧ c.ld = true := by
    simpa [ControlPattern.admits, ControlPattern.parallelLoad, agrees] using h
  exact primEdge_ld p c v q hclr hld

theorem primEdge_of_admits_clock {mode ib : Bool} (h : (ControlPattern.clock mode ib).admits c = true) :
    primEdge p false c v q = if mode then shiftG p.ci p.taps q ib else shiftU p.taps q ib := by
  obtain ⟨hclr, hld, hen, rfl, rfl⟩ :
      c.clr = false ∧ c.ld = false ∧ c.en = true ∧ mode = c.mode ∧ ib = c.ib := by
    simpa [ControlPattern.admits, ControlPattern.clock, agrees, and_assoc] using h
  exact primEdge_clock p c v q hclr hld hen

end Entries

/-! What the core does when its three primitives are driven by the rows of R67's table. -/

section Rows

variable {c1 c2 c3 : Control} (k : Bool) (s : State)

/-- The rows of `NOP` and of the reserved commands. -/
theorem State.driven_hold (e : Bool) (h1 : ControlPattern.hold.admits c1 = true)
    (h2 : ControlPattern.hold.admits c2 = true) (h3 : ControlPattern.hold.admits c3 = true) :
    s.driven c1 c2 c3 k e = { s with ksv := k, err := s.err || e } := by
  rw [State.driven, primEdge_of_admits_hold _ _ (admits_ld_false nofun h1),
    primEdge_of_admits_hold _ _ (admits_ld_false nofun h2), primEdge_of_admits_hold _ _ h3]

/-- The row of `CLR`. -/
theorem State.driven_clear (h1 : ControlPattern.clear.admits c1 = true) (h2 : ControlPattern.clear.admits c2 = true)
    (h3 : ControlPattern.clear.admits c3 = true) : s.driven c1 c2 c3 k false = s.clearRegs.setKsv k := by
  rw [State.driven, primEdge_of_admits_clear _ _ (admits_ld_false nofun h1),
    primEdge_of_admits_clear _ _ (admits_ld_false nofun h2), primEdge_of_admits_clear _ _ h3, Bool.or_false]
  rfl

/-- The rows of `LOAD`, with the UNCONDITIONAL mode, and of `WARM` and `GEN`, with the MAJORITY_GATED mode, in which
`ib` is the majority. -/
theorem State.driven_clock {mode ib : Bool} (h1 : (ControlPattern.clock mode ib).admits c1 = true)
    (h2 : (ControlPattern.clock mode ib).admits c2 = true) (h3 : (ControlPattern.clock mode ib).admits c3 = true)
    (hib : mode = true → ib = s.maj) :
    s.driven c1 c2 c3 k false = (if mode then s.clockG else s.clockU ib).setKsv k := by
  rw [State.driven, primEdge_of_admits_clock _ _ (admits_ld_false nofun h1),
    primEdge_of_admits_clock _ _ (admits_ld_false nofun h2), primEdge_of_admits_clock _ _ h3, Bool.or_false]
  cases mode with
  | false => rfl
  | true => rw [hib rfl]; rfl

/-- The row of `LDR3C`, with the `ld_val` input of R3 tied to `R3_OVERWRITE_VALUE`. -/
theorem State.driven_overwrite (h1 : ControlPattern.hold.admits c1 = true)
    (h2 : ControlPattern.hold.admits c2 = true) (h3 : ControlPattern.parallelLoad.admits c3 = true) :
    s.driven c1 c2 c3 k false = s.overwriteR3.setKsv k := by
  rw [State.driven, primEdge_of_admits_hold _ _ (admits_ld_false nofun h1),
    primEdge_of_admits_hold _ _ (admits_ld_false nofun h2), primEdge_of_admits_parallelLoad _ _ h3, Bool.or_false]
  rfl

end Rows

/-- A command of the build does what its row makes the three primitives do. -/
theorem exec_eq_driven {s : State} {i : Instr} {row : ControlRow} {c1 c2 c3 : Control}
    (hb : i.inBuild s.build.compatR3Overwrite = true) (hrow : controlRow s.maj i = some row)
    (h1 : row.r1.admits c1 = true) (h2 : row.r2.admits c2 = true) (h3 : row.r3.admits c3 = true) :
    exec i s = .next (s.driven c1 c2 c3 row.ksv row.setErr) := by
  cases i with
  | nop =>
    obtain rfl := Option.some.inj hrow
    have hd := s.driven_hold false false h1 h2 h3
    rw [Bool.or_false] at hd
    exact congrArg _ hd.symm
  | clr =>
    obtain rfl := Option.some.inj hrow
    exact congrArg _ (s.driven_clear false h1 h2 h3).symm
  | load b =>
    obtain rfl := Option.some.inj hrow
    exact congrArg _ (s.driven_clock false h1 h2 h3 nofun).symm
  | warm =>
    obtain rfl := Option.some.inj hrow
    exact congrArg _ (s.driven_clock false h1 h2 h3 fun _ => rfl).symm
  | gen =>
    obtain rfl := Option.some.inj hrow
    exact congrArg _ (s.driven_clock true h1 h2 h3 fun _ => rfl).symm
  | ldr3c =>
    obtain rfl := Option.some.inj hrow
    rw [exec_ldr3c_of_compat hb]
    exact congrArg _ (s.driven_overwrite false h1 h2 h3).symm
  | reserved101 | reserved110 | reserved111 =>
    obtain rfl := Option.some.inj hrow
    have hd := s.driven_hold false true h1 h2 h3
    rw [Bool.or_true] at hd
    exact congrArg _ hd.symm
  | pClear | pLoad | pHold | pShiftU | pShiftG => cases hrow

/-- The table has a row for exactly the commands of the core. -/
theorem isSome_controlRow (m : Bool) (i : Instr) : (controlRow m i).isSome = i.isCommand := by
  cases i <;> rfl

end Sys2Proof.Machine

namespace Sys2Proof.Proofs

open Sys2Proof.Machine Sys2Proof.Claims

/-- Settles O12: a `NOP` writes `KSV` alone, and so does a run of them, by induction on their number. -/
theorem nopHoldsTheRegisters : Obligations.NopHoldsTheRegisters := by
  refine ⟨decodeCmd_op000, exec_nop, fun n s rest h => ?_⟩
  obtain ⟨ksv, hrun⟩ := run_nops n s rest h
  exact ⟨_, hrun, ⟨rfl, rfl, rfl⟩, rfl, rfl, rfl, rfl⟩

/-- Settles O14: the three registers are clocked in UNCONDITIONAL mode with `b`, which keeps zero under 0. -/
theorem loadShiftsEveryRegister : Obligations.LoadShiftsEveryRegister := by
  refine ⟨decodeCmd_op010, fun b s => ⟨_, exec_load b s, s.clockU_r1_shifted b, s.clockU_r2_shifted b,
    s.clockU_r3_shifted b, rfl, rfl, ⟨rfl, rfl, rfl⟩, ?zero⟩⟩
  case zero =>
    rintro hz rfl
    exact zeroRegs_clockU hz

/-- Settles O15: the gated clock is the spec's round and keeps zero. -/
theorem warmIsAGatedRound : Obligations.WarmIsAGatedRound :=
  ⟨decodeCmd_op011, fun s => ⟨_, exec_warm s, gatedRound_clockG s false, rfl, rfl, ⟨rfl, rfl, rfl⟩, State.ks_eq _,
    zeroRegs_clockG⟩⟩

/-- Settles O16: the same round as `WARM`, with the bit readable after it. -/
theorem genEmitsAfterAGatedRound : Obligations.GenEmitsAfterAGatedRound :=
  ⟨decodeCmd_op100, fun s => ⟨_, exec_gen s, gatedRound_clockG s true, rfl, rfl, ⟨rfl, rfl, rfl⟩,
    State.keystreamBit?_of_ksv rfl, fun hz => ⟨zeroRegs_clockG hz, ks_of_zeroRegs (zeroRegs_clockG hz)⟩,
    _, exec_warm s, ⟨rfl, rfl, rfl⟩⟩⟩

/-- Settles O29: the three forms of the majority, and under `WARM` each register's two cases. -/
theorem majorityTruthTable : Obligations.MajorityTruthTable := by
  refine ⟨fun c1 c2 c3 => ⟨majority_eq c1 c2 c3, toNat_majority c1 c2 c3, majority_eq_true_iff c1 c2 c3⟩,
    fun _ => rfl, fun s => ⟨_, exec_warm s, ?_⟩⟩
  exact ⟨State.clockG_r1_shifted, State.clockG_r1_of_ne, State.clockG_r2_shifted, State.clockG_r2_of_ne,
    State.clockG_r3_shifted, State.clockG_r3_of_ne⟩

/-- Settles O31: command by command, each row's entries make the primitives do what the command does; a reset edge
zeroes all three registers. -/
theorem commandsDriveThePrimitives : Obligations.CommandsDriveThePrimitives := by
  refine ⟨fun s i row c1 c2 c3 => exec_eq_driven, isSome_controlRow, ?reset⟩
  case reset =>
    intro s p es c1 c2 c3 v1 v2 v3 hrst hin
    have hnext : s.nextEdge = .core p := by rw [State.nextEdge, hin, List.headD_cons]
    rw [step_core_rst hnext hrst, State.takeEdge, hin]
    rfl

/-- Settles O13: the registers and `KSV` are cleared, and nothing else is written. -/
theorem clrZeroesTheRegisters : Obligations.ClrZeroesTheRegisters := ⟨decodeCmd_op001, exec_clr⟩

/-- Settles O17: the overwrite in the compatibility build, the reserved command in the default one. -/
theorem ldr3cOverwritesR3 : Obligations.Ldr3cOverwritesR3 :=
  ⟨decodeCmd_op101 true, fun _ => exec_ldr3c_of_compat, fun _ => exec_ldr3c_of_default⟩

end Sys2Proof.Proofs

/-!
SUPPORT. The bits a host feeds and the bytes it combines, the commands of a session and what a run of commands leaves,
and the runs of two machines that differ in ERR and the stand-alone primitive alone; then the statements about the
session protocol (42_session_protocol.md).
-/

namespace Sys2Proof.Session

/-! The bits in feed order (R92). -/

@[simp] theorem length_keyFeed (k : SessionKey) : (keyFeed k).length = 64 := by simp [keyFeed, Config.keyBits]

@[simp] theorem length_frameFeed (f : FrameCounter) : (frameFeed f).length = 22 := by simp [frameFeed, Config.frameBits]

theorem getElem?_keyFeed (k : SessionKey) {j : Nat} (hj : j < 64) : (keyFeed k)[j]? = some (k.getLsbD j) := by
  simp [keyFeed, Config.keyBits, hj]

theorem getElem?_frameFeed (f : FrameCounter) {j : Nat} (hj : j < 22) : (frameFeed f)[j]? = some (f.getLsbD j) := by
  simp [frameFeed, Config.frameBits, hj]

/-- The key has the low bits of the host's integer. -/
theorem getLsbD_hostKey (k : Nat) {j : Nat} (hj : j < 64) : (hostKey k).getLsbD j = k.testBit j := by
  rw [hostKey, BitVec.getLsbD_ofNat, decide_eq_true hj, Bool.true_and]

/-- The frame counter has the low bits of the host's integer. -/
theorem getLsbD_hostFrame (f : Nat) {j : Nat} (hj : j < 22) : (hostFrame f).getLsbD j = f.testBit j := by
  rw [hostFrame, BitVec.getLsbD_ofNat, decide_eq_true hj, Bool.true_and]

/-! The byte combination (R93). -/

/-- Of `n` bits shifted in one after the other, the first one in stands highest. -/
theorem getLsbD_foldl_shiftConcat {w : Nat} (bit : Nat → Bool) (acc : BitVec w) (n i : Nat) (hw : i < w)
    (hn : i < n) :
    ((List.range n).foldl (fun a t => a.shiftConcat (bit t)) acc).getLsbD i = bit (n - 1 - i) := by
  induction n generalizing i with
  | zero => omega
  | succ n ih =>
    rw [List.range_succ, List.foldl_append, List.foldl_cons, List.foldl_nil, BitVec.getLsbD_shiftConcat,
      decide_eq_true hw, Bool.true_and]
    cases i with
    | zero => rfl
    | succ i =>
      rw [if_neg i.succ_ne_zero, Nat.add_sub_cancel, ih i (by omega) (by omega)]
      congr 1
      omega

/-- Keystream bit `z[8j+t]` stands in bit `7-t` of keystream byte `j`. -/
theorem getLsbD_keystreamByte (z : Nat → Bool) (j : Nat) {t : Nat} (ht : t < 8) :
    (keystreamByte z j).getLsbD (7 - t) = z (8 * j + t) := by
  rw [keystreamByte, getLsbD_foldl_shiftConcat (fun t => z (8 * j + t)) _ 8 _ (by omega) (by omega)]
  congr 2
  omega

/-- Each data byte meets the keystream byte of its own index. -/
theorem combineFrom_eq_mapIdx (z : Nat → Bool) (j : Nat) (ms : List Byte) :
    combineFrom z j ms = ms.mapIdx fun i m => m ^^^ keystreamByte z (j + i) := by
  induction ms generalizing j with
  | nil => rfl
  | cons m ms ih => simp [combineFrom, ih, List.mapIdx_cons, Nat.add_comm, Nat.add_left_comm]

theorem combine_eq_mapIdx (z : Nat → Bool) (ms : List Byte) :
    combine z ms = ms.mapIdx fun i m => m ^^^ keystreamByte z i := by
  simp [combine, combineFrom_eq_mapIdx]

@[simp] theorem length_combine (z : Nat → Bool) (ms : List Byte) : (combine z ms).length = ms.length := by
  simp [combine_eq_mapIdx]

theorem getElem_combine (z : Nat → Bool) (ms : List Byte) {j : Nat} (hc : j < (combine z ms).length)
    (hj : j < ms.length) : (combine z ms)[j] = ms[j] ^^^ keystreamByte z j := by
  simp [combine_eq_mapIdx]

/-! The commands of a session (R80, R84). -/

/-- The initialisation holds a `CLR`, `LOAD`s and `WARM`s, and in the compatibility variant an `LDR3C`. -/
theorem mem_expand_initOf {v : Variant} {k : SessionKey} {f : FrameCounter} {i : Instr}
    (h : i ∈ expand (initOf v k f)) :
    i = .clr ∨ (∃ b, i = .load b) ∨ i = .warm ∨ (i = .ldr3c ∧ v = .compat) := by
  have hload {bits : List Bool} (hb : i ∈ loads bits) : ∃ b, i = .load b := by
    obtain ⟨b, -, rfl⟩ := List.mem_map.mp hb
    exact ⟨b, rfl⟩
  have hwarm (hw : i ∈ warmups) : i = .warm := List.eq_of_mem_replicate hw
  cases v with
  | default =>
    simp only [initOf, expand, List.mem_cons, List.mem_append] at h
    obtain rfl | (hk | hf) | hw := h
    exacts [.inl rfl, .inr (.inl (hload hk)), .inr (.inl (hload hf)), .inr (.inr (.inl (hwarm hw)))]
  | compat =>
    simp only [initOf, expand, List.mem_cons, List.mem_append, List.not_mem_nil, or_false] at h
    obtain rfl | ((hk | hf) | rfl) | hw := h
    exacts [.inl rfl, .inr (.inl (hload hk)), .inr (.inl (hload hf)), .inr (.inr (.inr ⟨rfl, rfl⟩)),
      .inr (.inr (.inl (hwarm hw)))]

/-- The initialisation holds no `GEN`. -/
theorem gen_notMem_expand_initOf (v : Variant) (k : SessionKey) (f : FrameCounter) :
    Instr.gen ∉ expand (initOf v k f) := by
  intro h
  obtain h | ⟨b, h⟩ | h | ⟨h, -⟩ := mem_expand_initOf h <;> cases h

/-- A session that combines no data is its initialisation alone (R95). -/
theorem byteSession_zero (v : Variant) (k : SessionKey) (f : FrameCounter) :
    byteSession v k f 0 = expand (initOf v k f) :=
  List.append_nil _

/-- All the `GEN`s of a session come after its initialisation, eight a byte. -/
theorem count_gen_byteSession (v : Variant) (k : SessionKey) (f : FrameCounter) (n : Nat) :
    (byteSession v k f n).count .gen = 8 * n := by
  rw [byteSession, session, List.count_append, List.count_eq_zero_of_not_mem (gen_notMem_expand_initOf v k f), expand,
    List.count_replicate_self, Nat.zero_add]

/-! What a list of commands makes of the registers and of `KSV`, in the terms of R87. -/

/-- The registers after one instruction, in a build that has it. -/
def Regs.after (overwrite : R3Bits) (r : Regs) : Instr → Regs
  | .clr => .zero
  | .load b => r.mix b
  | .warm | .gen => r.round
  | .ldr3c => { r with r3 := overwrite }
  | .nop | .reserved101 | .reserved110 | .reserved111 => r
  | .pClear | .pLoad _ | .pHold | .pShiftU _ | .pShiftG _ => r

/-- The registers after a list of commands. -/
def regsAfter (overwrite : R3Bits) (r : Regs) (is : List Instr) : Regs := is.foldl (Regs.after overwrite) r

/-- `KSV` after a list of commands: whether the last of them is `GEN`. -/
def ksvAfter (ksv : Bool) (is : List Instr) : Bool := is.foldl (fun _ i => i == .gen) ksv

/-- `LOAD`s mix their bits in. -/
theorem regsAfter_loads (overwrite : R3Bits) (r : Regs) (bits : List Bool) :
    regsAfter overwrite r (loads bits) = mixAll r bits :=
  List.foldl_map

/-- `n` `WARM`s are `n` rounds. -/
theorem regsAfter_replicate_warm (overwrite : R3Bits) (n : Nat) (r : Regs) :
    regsAfter overwrite r (List.replicate n .warm) = rounds n r := by
  induction n generalizing r with
  | zero => rfl
  | succ n ih => exact ih r.round

/-- The initialisation leaves `W100` (R85, R87), whatever the registers were. -/
theorem regsAfter_expand_initOf (v : Variant) (overwrite : R3Bits) (k : SessionKey) (f : FrameCounter) (r : Regs) :
    regsAfter overwrite r (expand (initOf v k f)) = produced v overwrite k f := by
  have happend (r : Regs) (is js : List Instr) :
      regsAfter overwrite r (is ++ js) = regsAfter overwrite (regsAfter overwrite r is) js := List.foldl_append
  have hmixed : regsAfter overwrite .zero (loads (keyFeed k) ++ loads (frameFeed f)) = mixed k f := by
    rw [happend, regsAfter_loads, regsAfter_loads, mixed]
  have hclr (is : List Instr) : regsAfter overwrite r (.clr :: is) = regsAfter overwrite .zero is := rfl
  have hldr3c (r : Regs) : regsAfter overwrite r [.ldr3c] = { r with r3 := overwrite } := rfl
  cases v with
  | default => rw [initOf, expand, hclr, happend, hmixed, warmups, regsAfter_replicate_warm]; rfl
  | compat => rw [initOf, expand, hclr, happend, happend, hmixed, hldr3c, warmups, regsAfter_replicate_warm]; rfl

/-- Without a `GEN` in it a list of commands leaves `KSV` at 0. -/
theorem ksvAfter_of_gen_notMem {is : List Instr} (hne : is ≠ []) (h : Instr.gen ∉ is) (ksv : Bool) :
    ksvAfter ksv is = false := by
  induction is generalizing ksv with
  | nil => exact absurd rfl hne
  | cons i is ih =>
    obtain ⟨hi, his⟩ := not_or.mp (mt List.mem_cons.mpr h)
    have hfirst : ksvAfter ksv (i :: is) = ksvAfter false is :=
      congrArg (ksvAfter · is) (beq_false_of_ne (Ne.symm hi))
    rw [hfirst]
    cases is with
    | nil => rfl
    | cons j js => exact ih (List.cons_ne_nil j js) his false

end Sys2Proof.Session

namespace Sys2Proof.Machine

open Sys2Proof.Session

/-! Runs of commands that the host presents by their encodings. -/

/-- An instruction of the build is decoded from its own encoding (30_encoding.md R42, R44, R46). -/
theorem decode_encode {compat : Bool} {i : Instr} (h : i.inBuild compat = true) : decode compat (encode i) = i := by
  cases i with
  | nop => exact decodeCmd_op000 compat false
  | clr => exact decodeCmd_op001 compat false
  | load b => exact decodeCmd_op010 compat b
  | warm => exact decodeCmd_op011 compat false
  | gen => exact decodeCmd_op100 compat false
  | ldr3c => exact (decodeCmd_op101 compat false).trans (if_pos h)
  | reserved101 => exact (decodeCmd_op101 compat false).trans (if_neg (by simpa [Instr.inBuild] using h))
  | reserved110 => exact decodeCmd_op110 compat false
  | reserved111 => exact decodeCmd_op111 compat false
  | pClear => exact decodeCtrl_clear false false false false 0
  | pLoad v => exact decodeCtrl_ctrlVec false true false false false v
  | pHold => exact decodeCtrl_hold false false 0
  | pShiftU b => exact decodeCtrl_shiftU b 0
  | pShiftG b => exact decodeCtrl_shiftG b 0

/-- The edge listed first is the next one. -/
theorem State.nextEdge_of_inputs {s : State} {e : Edge} {es : List Edge} (h : s.inputs = e :: es) : s.nextEdge = e := by
  rw [State.nextEdge, h, List.headD_cons]

/-- A step at an edge that presents an instruction of the build. -/
theorem step_edgeOfInstr {s : State} {i : Instr} {es : List Edge} (hb : i.inBuild s.build.compatR3Overwrite = true)
    (h : s.inputs = edgeOfInstr i :: es) : step s = exec i s.takeEdge :=
  step_run (by rw [State.nextEdge_of_inputs h, edgeOfInstr, edgeAction_edgeOfEncoded, decode_encode hb])

/-- A command that a host may issue to a build: one of its own, and not reserved. -/
structure Issuable (compat : Bool) (i : Instr) : Prop where
  command    : i.isCommand = true
  unreserved : i.isReserved = false
  inBuild    : i.inBuild compat = true

/-- From `s` to `t` the core ran these commands: what they do to the registers and `KSV`, and all that they keep. -/
structure Ran (is : List Instr) (s t : State) : Prop where
  regs  : t.regs = regsAfter s.build.r3OverwriteValue s.regs is
  ksv   : t.ksv = ksvAfter s.ksv is
  err   : t.err = s.err
  build : t.build = s.build
  prim  : t.prim = s.prim

/-- One command and then others. -/
theorem Ran.cons {i : Instr} {is : List Instr} {s u t : State} (hi : Ran [i] s u) (his : Ran is u t) :
    Ran (i :: is) s t where
  regs := by rw [his.regs, hi.regs, hi.build]; rfl
  ksv := by rw [his.ksv, hi.ksv]; rfl
  err := his.err.trans hi.err
  build := his.build.trans hi.build
  prim := his.prim.trans hi.prim

/-- What one issuable command does. -/
theorem exec_ran {i : Instr} {s : State} (h : Issuable s.build.compatR3Overwrite i) :
    ∃ t, exec i s = .next t ∧ Ran [i] s t ∧ t.inputs = s.inputs := by
  cases i with
  | nop | clr | load | warm | gen => exact ⟨_, rfl, ⟨rfl, rfl, rfl, rfl, rfl⟩, rfl⟩
  | ldr3c => exact ⟨_, exec_ldr3c_of_compat h.inBuild, ⟨rfl, rfl, rfl, rfl, rfl⟩, rfl⟩
  | reserved101 | reserved110 | reserved111 => exact nomatch h.unreserved
  | pClear | pLoad | pHold | pShiftU | pShiftG => exact nomatch h.command

/-- A list of issuable commands, presented one an edge, is run to its end. -/
theorem run_edges (is : List Instr) (s : State) (rest : List Edge)
    (h : ∀ i ∈ is, Issuable s.build.compatR3Overwrite i) (hin : s.inputs = edges is ++ rest) :
    ∃ t, Host.Core.run core (edges is).length s = .next t ∧ Ran is s t ∧ t.inputs = rest := by
  induction is generalizing s with
  | nil => exact ⟨s, run_zero s, ⟨rfl, rfl, rfl, rfl, rfl⟩, hin⟩
  | cons i is ih =>
    obtain ⟨hi, his⟩ := List.forall_mem_cons.mp h
    have hin' : s.inputs = edgeOfInstr i :: (edges is ++ rest) := hin
    obtain ⟨u, hexec, hran, hu⟩ := exec_ran (s := s.takeEdge) hi
    have hstep : step s = .next u := (step_edgeOfInstr hi.inBuild hin').trans hexec
    have hran' : Ran [i] s u := ⟨hran.regs, hran.ksv, hran.err, hran.build, hran.prim⟩
    rw [State.takeEdge_inputs, hin', List.tail_cons] at hu
    obtain ⟨t, hrun, hrest, ht⟩ := ih u (by rwa [hran'.build]) hu
    exact ⟨t, (run_succ_of_step hstep _).trans hrun, hran'.cons hrest, ht⟩

/-- The commands of a session's initialisation can be issued where its variant is available (R84). -/
theorem issuable_of_mem_expand_initOf {v : Variant} {k : SessionKey} {f : FrameCounter} {b : Build} {i : Instr}
    (hv : v.available b = true) (h : i ∈ expand (initOf v k f)) : Issuable b.compatR3Overwrite i := by
  obtain rfl | ⟨_, rfl⟩ | rfl | ⟨rfl, rfl⟩ := mem_expand_initOf h
  exacts [⟨rfl, rfl, rfl⟩, ⟨rfl, rfl, rfl⟩, ⟨rfl, rfl, rfl⟩, ⟨rfl, rfl, hv⟩]

/-! Two machines that differ in ERR and the stand-alone primitive alone: neither reaches the registers or `KSV`, and the
primitive does not reach ERR. -/

/-- The machine with another value in ERR and another stand-alone primitive. -/
def State.withErrPrim (err : Bool) (prim : Prim) (s : State) : State := { s with err := err, prim := prim }

/-- Of outcomes: both go on, with states that again differ so, and with one ERR if they had one ERR, `same`, before. -/
def StayAlike (same : Prop) (r r' : Host.Outcome State Fault Refusal) : Prop :=
  ∃ t err prim, r = .next t ∧ r' = .next (t.withErrPrim err prim) ∧ (same → err = t.err)

section Alike

variable (err : Bool) (prim : Prim)

/-- No instruction reads ERR, and none but the primitive's own reads or writes the primitive. -/
theorem exec_withErrPrim (i : Instr) (s : State) :
    StayAlike (err = s.err) (exec i s) (exec i (s.withErrPrim err prim)) := by
  cases i with
  | nop | clr | load | warm | gen => exact ⟨_, err, prim, rfl, rfl, id⟩
  | ldr3c =>
    cases hb : s.build.compatR3Overwrite with
    | true => exact ⟨_, err, prim, exec_ldr3c_of_compat hb, exec_ldr3c_of_compat hb, id⟩
    | false => exact ⟨_, true, prim, exec_ldr3c_of_default hb, exec_ldr3c_of_default hb, fun _ => rfl⟩
  | reserved101 | reserved110 | reserved111 => exact ⟨_, true, prim, rfl, rfl, fun _ => rfl⟩
  | pClear | pLoad | pHold | pShiftU | pShiftG => exact ⟨_, err, _, rfl, rfl, id⟩

/-- No edge lets ERR reach anything else, or the primitive the core. -/
theorem step_withErrPrim (s : State) : StayAlike (err = s.err) (step s) (step (s.withErrPrim err prim)) := by
  have hedge : edgeAction (s.withErrPrim err prim).build.compatR3Overwrite (s.withErrPrim err prim).nextEdge =
      edgeAction s.build.compatR3Overwrite s.nextEdge := rfl
  rw [step, step, hedge]
  cases edgeAction s.build.compatR3Overwrite s.nextEdge with
  | resetCore => exact ⟨s.takeEdge.resetCore, false, prim, rfl, rfl, fun _ => rfl⟩
  | resetPrim => exact ⟨s.takeEdge.resetPrim, err, _, rfl, rfl, id⟩
  | run i => exact exec_withErrPrim err prim i s.takeEdge

/-- Such machines stay alike for any number of edges. -/
theorem run_withErrPrim (n : Nat) (s : State) :
    StayAlike (err = s.err) (Host.Core.run core n s) (Host.Core.run core n (s.withErrPrim err prim)) := by
  induction n generalizing err prim s with
  | zero => exact ⟨s, err, prim, rfl, rfl, id⟩
  | succ n ih =>
    obtain ⟨u, err', prim', hstep, hstep', herr⟩ := step_withErrPrim err prim s
    obtain ⟨t, err'', prim'', hrun, hrun', herr'⟩ := ih err' prim' u
    exact ⟨t, err'', prim'', (run_succ_of_step hstep n).trans hrun, (run_succ_of_step hstep' n).trans hrun',
      herr' ∘ herr⟩

end Alike

section Forgetting

variable {s s' : State} (hb : s'.build = s.build) (hin : s'.inputs = s.inputs)
include hb hin

/-- What `CLR` leaves of a machine besides its build and inputs is ERR and the primitive (R70). -/
theorem State.clearRegs_forgets : s'.takeEdge.clearRegs.setKsv false =
    (s.takeEdge.clearRegs.setKsv false).withErrPrim s'.err s'.prim := by
  simp [State.takeEdge, State.clearRegs, State.setKsv, State.withErrPrim, hb, hin]

/-- What reset leaves of a machine besides its build and inputs is the primitive (70_reset_and_hazards.md R109). -/
theorem State.resetCore_forgets : s'.takeEdge.resetCore = s.takeEdge.resetCore.withErrPrim false s'.prim := by
  simp [State.takeEdge, State.resetCore, State.withErrPrim, hb, hin]

end Forgetting

end Sys2Proof.Machine

namespace Sys2Proof.Proofs

open Sys2Proof.Machine Sys2Proof.Session Sys2Proof.Claims

/-- Settles O47: the session is its initialisation alone, whose commands can all be issued, hold no `GEN` and lead to
`W100`. -/
theorem emptyDataLeavesTheWarmState : Obligations.EmptyDataLeavesTheWarmState := by
  refine ⟨?noGen, ?warm, fun _ => rfl⟩
  case noGen =>
    intro v k f
    rw [byteSession_zero]
    exact gen_notMem_expand_initOf v k f
  case warm =>
    intro v k f s rest hv hin
    rw [byteSession_zero] at hin ⊢
    obtain ⟨t, hrun, hran, -⟩ := run_edges _ s rest (fun _ => issuable_of_mem_expand_initOf hv) hin
    have hne : expand (initOf v k f) ≠ [] := by cases v <;> exact List.cons_ne_nil _ _
    exact ⟨t, hrun, hran.regs.trans (regsAfter_expand_initOf v _ k f s.regs),
      hran.ksv.trans (ksvAfter_of_gen_notMem hne (gen_notMem_expand_initOf v k f) _), hran.err⟩

/-- Settles O49: after the `CLR` the two machines differ in ERR and the primitive alone, after the reset in the primitive
alone, and no run tells the registers of such machines apart. -/
theorem newSessionForgetsTheRegisters : Obligations.NewSessionForgetsTheRegisters := by
  refine ⟨?clr, ?reset, fun s => ⟨_, exec_clr s, rfl⟩⟩
  case clr =>
    intro s s' es n hb hin hin' _
    have hstep := (step_edgeOfInstr rfl hin).trans (exec_clr _)
    have hstep' := (step_edgeOfInstr rfl hin').trans (exec_clr _)
    rw [State.clearRegs_forgets hb (hin'.trans hin.symm)] at hstep'
    obtain ⟨t, err, prim, hrun, hrun', -⟩ := run_withErrPrim s'.err s'.prim n (s.takeEdge.clearRegs.setKsv false)
    exact ⟨t, t.withErrPrim err prim, (run_succ_of_step hstep n).trans hrun, (run_succ_of_step hstep' n).trans hrun',
      ⟨rfl, rfl, rfl⟩, rfl⟩
  case reset =>
    intro s s' p es n hrst hb hin hin' _
    have hstep := step_core_rst (State.nextEdge_of_inputs hin) hrst
    have hstep' := step_core_rst (State.nextEdge_of_inputs hin') hrst
    rw [State.resetCore_forgets hb (hin'.trans hin.symm)] at hstep'
    obtain ⟨t, err, prim, hrun, hrun', herr⟩ := run_withErrPrim false s'.prim n s.takeEdge.resetCore
    exact ⟨t, t.withErrPrim err prim, (run_succ_of_step hstep n).trans hrun, (run_succ_of_step hstep' n).trans hrun',
      ⟨rfl, rfl, rfl, rfl, herr rfl⟩⟩

/-- Settles O51: the host's numbers are taken modulo the widths, and the feeds list their bits from bit 0 up. -/
theorem hostPresentsTheLowBits : Obligations.HostPresentsTheLowBits := by
  intro k f
  refine ⟨BitVec.toNat_ofNat k 64, BitVec.toNat_ofNat f 22, length_keyFeed _, length_frameFeed _, ?key, ?frame⟩
  case key =>
    intro j hj
    rw [getElem?_keyFeed _ hj, getLsbD_hostKey k hj]
  case frame =>
    intro j hj
    rw [getElem?_frameFeed _ hj, getLsbD_hostFrame f hj]

/-- Settles O52: byte `j` meets keystream byte `j`, in whose bit `7-t` stands `z[8j+t]`; and the `GEN`s of a session are
eight a byte. -/
theorem hostByteContract : Obligations.HostByteContract := by
  refine ⟨fun z m => ⟨length_combine z m, ?bits⟩, count_gen_byteSession⟩
  case bits =>
    intro j hj hc t ht
    rw [getElem_combine z m hc hj, BitVec.getLsbD_xor, getLsbD_keystreamByte z j ht]

end Sys2Proof.Proofs

/-!
SUPPORT. ERR after one instruction, what every step keeps, and the record that a list of edges leaves, by its first edge;
then the statements about the error (60_exceptions.md).
-/

namespace Sys2Proof.Machine

/-- Every instruction of the build goes on, and ERR collects the reserved ones (60_exceptions.md R96). -/
theorem exec_err {i : Instr} {s : State} (hb : i.inBuild s.build.compatR3Overwrite = true) :
    ∃ t, exec i s = .next t ∧ t.err = (s.err || i.isReserved) := by
  cases hc : i.isCommand with
  | true =>
    obtain ⟨t, hexec, -, herr⟩ := exec_of_isCommand hc hb
    exact ⟨t, hexec, herr⟩
  | false =>
    have hr : i.isReserved = false := by
      cases i with
      | pClear | pLoad | pHold | pShiftU | pShiftG => rfl
      | _ => cases hc
    obtain ⟨f, hexec⟩ := exec_of_not_isCommand hc s
    exact ⟨_, hexec, by simp [hr]⟩

/-- No instruction writes the build or the inputs to come (10_state.md R18, R23). -/
theorem exec_keeps_build_inputs {i : Instr} {s t : State} (h : exec i s = .next t) :
    t.build = s.build ∧ t.inputs = s.inputs := by
  cases i with
  | ldr3c =>
    cases hb : s.build.compatR3Overwrite with
    | true => cases (exec_ldr3c_of_compat hb).symm.trans h; exact ⟨rfl, rfl⟩
    | false => cases (exec_ldr3c_of_default hb).symm.trans h; exact ⟨rfl, rfl⟩
  | _ => cases h; exact ⟨rfl, rfl⟩

/-- Every step keeps the build and takes one edge from the inputs. -/
theorem step_build_inputs {s t : State} (h : step s = .next t) : t.build = s.build ∧ t.inputs = s.inputs.tail := by
  obtain ⟨-, rfl⟩ | ⟨-, rfl⟩ | ⟨i, -, hexec⟩ := step_cases h
  · exact ⟨rfl, rfl⟩
  · exact ⟨rfl, rfl⟩
  · exact exec_keeps_build_inputs hexec

/-- Reset discards the command, so an edge that runs a reserved command does not reset the core
(60_exceptions.md R100). -/
theorem Edge.resetsCore_of_runsReserved {e : Edge} {compat : Bool} (h : e.runsReserved compat = true) :
    e.resetsCore = false := by
  cases e with
  | prim p => rfl
  | core p => simpa [Edge.resetsCore] using (Bool.and_eq_true_iff.mp h).1

/-- One of the edges runs a reserved command and none after it resets the core: what ERR records (R97). -/
def ReservedSinceReset (compat : Bool) (es : List Edge) : Prop :=
  ∃ (before after : List Edge) (e : Edge), es = before ++ e :: after ∧
    e.runsReserved compat = true ∧ ∀ x ∈ after, x.resetsCore = false

theorem not_reservedSinceReset_nil (compat : Bool) : ¬ ReservedSinceReset compat [] := by
  rintro ⟨before, after, e, hsplit, -⟩
  exact List.append_ne_nil_of_right_ne_nil before (List.cons_ne_nil e after) hsplit.symm

/-- The edge recorded is the first one, or it is among the others. -/
theorem reservedSinceReset_cons (compat : Bool) (e : Edge) (es : List Edge) :
    ReservedSinceReset compat (e :: es) ↔
      (e.runsReserved compat = true ∧ ∀ x ∈ es, x.resetsCore = false) ∨ ReservedSinceReset compat es := by
  constructor
  · rintro ⟨before, after, e', hsplit, hres, hafter⟩
    cases before with
    | nil =>
      obtain ⟨rfl, rfl⟩ := List.cons.inj hsplit
      exact .inl ⟨hres, hafter⟩
    | cons b before =>
      exact .inr ⟨before, after, e', (List.cons.inj hsplit).2, hres, hafter⟩
  · rintro (⟨hres, hafter⟩ | ⟨before, after, e', rfl, hres, hafter⟩)
    · exact ⟨[], es, e, rfl, hres, hafter⟩
    · exact ⟨e :: before, after, e', rfl, hres, hafter⟩

/-- The record over a list of edges in terms of ERR after the first of them (R22) and the record over the others:
the first edge's own reserved command counts as ERR at the start of the others. -/
theorem err_record_cons {compat err err' : Bool} {e : Edge} (es : List Edge)
    (h : err' = true ↔ e.resetsCore = false ∧ (err = true ∨ e.runsReserved compat = true)) :
    ReservedSinceReset compat es ∨ (err' = true ∧ ∀ x ∈ es, x.resetsCore = false) ↔
      ReservedSinceReset compat (e :: es) ∨ (err = true ∧ ∀ x ∈ e :: es, x.resetsCore = false) := by
  have hexcl : e.runsReserved compat = true → e.resetsCore = false := Edge.resetsCore_of_runsReserved
  rw [h, reservedSinceReset_cons, List.forall_mem_cons]
  tauto

end Sys2Proof.Machine

namespace Sys2Proof.Proofs

open Sys2Proof.Machine

/-- Settles O37, by induction on the edges: a step leaves in ERR what the first edge adds to the record. -/
theorem errRecordsReservedSinceReset : Obligations.ErrRecordsReservedSinceReset := by
  intro es
  induction es with
  | nil =>
    intro s rest hin
    refine ⟨s, run_zero s, hin, rfl, ?_⟩
    have hnone : ¬ ReservedSinceReset s.build.compatR3Overwrite [] := not_reservedSinceReset_nil _
    exact ⟨fun h => .inr ⟨h, nofun⟩, fun h => (h.resolve_left hnone).1⟩
  | cons e es ih =>
    intro s rest hin
    obtain ⟨u, hstep, herr⟩ := errIsSticky s
    obtain ⟨hbuild, hinputs⟩ := step_build_inputs hstep
    have hrest : u.inputs = es ++ rest := by rw [hinputs, hin]; rfl
    obtain ⟨t, hrun, ht, hfault, hrecord⟩ := ih u rest hrest
    rw [hbuild] at hrecord
    rw [State.nextEdge_of_inputs hin] at herr
    exact ⟨t, (run_succ_of_step hstep _).trans hrun, ht, hfault, hrecord.trans (err_record_cons es herr)⟩

/-- Settles O36: ERR after an instruction is ERR before it or whether it is reserved. -/
theorem onlyReservedCommandsRaiseErr : Obligations.OnlyReservedCommandsRaiseErr := by
  intro i s hb
  obtain ⟨t, hexec, herr⟩ := exec_err hb
  exact ⟨t, hexec, fun hr => by simp [herr, hr], fun hr => by simp [herr, hr]⟩

end Sys2Proof.Proofs

/-!
SUPPORT. Which edges reset the core, what further reset edges do to a machine at the reset values, and the first command
after them; then the statements about reset (70_reset_and_hazards.md).
-/

namespace Sys2Proof.Machine

open Sys2Proof.Claims

/-- The edges that reset the core are its own, with `rst = 1` (70_reset_and_hazards.md R109). -/
theorem Edge.resetsCore_iff (e : Edge) : e.resetsCore = true ↔ ∃ p, e = .core p ∧ p.rst = true := by
  cases e with
  | core p => simp [Edge.resetsCore]
  | prim p => simp [Edge.resetsCore]

/-- A reset edge at the head of the inputs resets the core and is taken; the run goes on from there. -/
theorem run_succ_core_rst {s : State} {p : CorePorts} {es : List Edge} (hin : s.inputs = .core p :: es)
    (hr : p.rst = true) (n : Nat) :
    Host.Core.run core (n + 1) s = Host.Core.run core n (withInputs s es).resetCore := by
  have hstep : step s = .next s.takeEdge.resetCore := step_core_rst (State.nextEdge_of_inputs hin) hr
  rw [run_succ_of_step hstep, State.takeEdge, hin, List.tail_cons, withInputs]

/-- A machine at the reset values that samples reset edges stays at them and takes the edges (R110). -/
theorem run_resetCore {ps : List CorePorts} (hps : ∀ p ∈ ps, p.rst = true) (s : State) (rest : List Edge) :
    Host.Core.run core ps.length (withInputs s (coreEdges ps ++ rest)).resetCore =
      .next (withInputs s rest).resetCore := by
  induction ps with
  | nil => rfl
  | cons p ps ih =>
    obtain ⟨hp, hps⟩ := List.forall_mem_cons.mp hps
    exact (run_succ_core_rst rfl hp ps.length).trans (ih hps)

/-- The first reset edge brings the machine to the reset values and the further ones keep it there (R110). -/
theorem run_resets {ps : List CorePorts} (hne : ps ≠ []) (hps : ∀ p ∈ ps, p.rst = true) {s : State} {rest : List Edge}
    (hin : s.inputs = coreEdges ps ++ rest) :
    Host.Core.run core ps.length s = .next (withInputs s rest).resetCore := by
  cases ps with
  | nil => exact absurd rfl hne
  | cons p ps =>
    obtain ⟨hp, hps⟩ := List.forall_mem_cons.mp hps
    exact (run_succ_core_rst hin hp ps.length).trans (run_resetCore hps s rest)

/-- A command at the head of the inputs is executed with that edge taken. -/
theorem step_core_cmd_of_inputs {s : State} {p : CorePorts} {es : List Edge} (hin : s.inputs = .core p :: es)
    (hr : p.rst = false) :
    step s = exec (decodeCmd s.build.compatR3Overwrite (cmdWord p.op p.din)) { s with inputs := es } := by
  rw [step_core_cmd (State.nextEdge_of_inputs hin) hr, State.takeEdge, hin, List.tail_cons, CorePorts.word]

end Sys2Proof.Machine

namespace Sys2Proof.Proofs

open Sys2Proof.Machine Sys2Proof.Claims

/-- Settles O2: the step at a reset edge is `State.resetCore`; and since ERR is sticky at every other edge, an edge that
takes it from 1 to 0 is one that resets the core. -/
theorem resetEdgeClearsTheCore : Obligations.ResetEdgeClearsTheCore := by
  refine ⟨fun s p he hr => step_core_rst he hr, ?clears⟩
  case clears =>
    intro s t hstep hs ht
    obtain ⟨t', hstep', herr⟩ := errIsSticky s
    cases hstep.symm.trans hstep'
    rw [← Edge.resetsCore_iff]
    by_contra hno
    have hset : t.err = true := herr.mpr ⟨Bool.eq_false_of_not_eq_true hno, .inl hs⟩
    exact Bool.false_ne_true (ht.symm.trans hset)

/-- Settles O3: the run is known in closed form, and the edge after it is at the head of its inputs. -/
theorem heldResetKeepsResetValues : Obligations.HeldResetKeepsResetValues := by
  intro ps s rest hne hps hin
  refine ⟨(withInputs s rest).resetCore, run_resets hne hps hin, ⟨rfl, rfl, rfl⟩, rfl, rfl, rfl, rfl, rfl, ?_⟩
  intro p more hrest hr
  exact step_core_cmd_of_inputs hrest hr

end Sys2Proof.Proofs

/-!
SUPPORT. What one edge makes of the registers, KSV and ERR, as functions of the edge; the step and the runs in these
terms; then the statements that compare runs and those about every step (10_state.md, 60_exceptions.md,
70_reset_and_hazards.md).
-/

namespace Sys2Proof.Session

/-! Reserved commands and zero registers in the terms of the keystream function (42_session_protocol.md R87). -/

@[simp] theorem Regs.mix_zero : Regs.zero.mix false = .zero := by simp [Regs.mix, Regs.zero]

@[simp] theorem Regs.round_zero : Regs.zero.round = .zero := by simp [Regs.round, Regs.zero]

@[simp] theorem Regs.out_zero : Regs.zero.out = false := rfl

/-- Of the instructions only `LOAD 1` and `LDR3C` make zero registers other than zero. -/
theorem Regs.after_zero {i : Instr} (hload : i ≠ .load true) (hldr3c : i ≠ .ldr3c) (overwrite : R3Bits) :
    Regs.zero.after overwrite i = .zero := by
  cases i with
  | load b =>
    obtain rfl : b = false := by simpa using hload
    exact Regs.mix_zero
  | warm | gen => exact Regs.round_zero
  | ldr3c => exact absurd rfl hldr3c
  | nop | clr | reserved101 | reserved110 | reserved111 => rfl
  | pClear | pLoad | pHold | pShiftU | pShiftG => rfl

/-- A reserved command leaves the registers. -/
theorem Regs.after_of_isReserved {i : Instr} (h : i.isReserved = true) (overwrite : R3Bits) (r : Regs) :
    r.after overwrite i = r := by
  cases i with
  | reserved101 | reserved110 | reserved111 => rfl
  | _ => cases h

@[simp] theorem rounds_zero (n : Nat) : rounds n .zero = .zero := by
  induction n with
  | zero => rfl
  | succ n ih => rw [rounds, Regs.round_zero, ih]

theorem mixAll_zero (n : Nat) : mixAll .zero (List.replicate n false) = .zero := by
  induction n with
  | zero => rfl
  | succ n ih => rw [List.replicate_succ, mixAll, List.foldl_cons, Regs.mix_zero]; exact ih

theorem keyFeed_zero : keyFeed 0#64 = List.replicate 64 false :=
  List.eq_replicate_iff.mpr ⟨length_keyFeed _, by simp [keyFeed]⟩

theorem frameFeed_zero : frameFeed 0#22 = List.replicate 22 false :=
  List.eq_replicate_iff.mpr ⟨length_frameFeed _, by simp [frameFeed]⟩

theorem mixed_zero : mixed 0#64 0#22 = .zero := by
  rw [mixed, keyFeed_zero, frameFeed_zero, mixAll_zero, mixAll_zero]

end Sys2Proof.Session

namespace Sys2Proof.Machine

open Sys2Proof.Session Sys2Proof.Claims

/-! What an edge does to the core (70_reset_and_hazards.md R108, R109; 41_keystream_core.md R67). -/

/-- The registers after an edge. -/
def Edge.regsAfter (b : Build) (r : Regs) : Edge → Regs
  | .core p => if p.rst then .zero else r.after b.r3OverwriteValue (decodeCmd b.compatR3Overwrite p.word)
  | .prim _ => r

/-- `KSV` after an edge. -/
def Edge.ksvAfter (compat ksv : Bool) : Edge → Bool
  | .core p => !p.rst && decodeCmd compat p.word == .gen
  | .prim _ => ksv

/-- `ERR` after an edge. -/
def Edge.errAfter (compat err : Bool) (e : Edge) : Bool := !e.resetsCore && (err || e.runsReserved compat)

/-- A step from `s` to `t` did to the core what the next edge says, and took that edge. -/
structure Stepped (s t : State) : Prop where
  regs   : t.regs = s.nextEdge.regsAfter s.build s.regs
  ksv    : t.ksv = s.nextEdge.ksvAfter s.build.compatR3Overwrite s.ksv
  err    : t.err = s.nextEdge.errAfter s.build.compatR3Overwrite s.err
  build  : t.build = s.build
  inputs : t.inputs = s.inputs.tail
  params : t.prim.params = s.prim.params
  prim   : ∀ p, s.nextEdge = .core p → t.prim = s.prim

/-- What a command of the build does to the registers, and that it keeps the primitive. -/
theorem exec_regs_prim {i : Instr} {s t : State} (hc : i.isCommand = true)
    (hb : i.inBuild s.build.compatR3Overwrite = true) (h : exec i s = .next t) :
    t.regs = s.regs.after s.build.r3OverwriteValue i ∧ t.prim = s.prim := by
  cases i with
  | nop | clr | load | warm | gen | reserved101 | reserved110 | reserved111 => cases h; exact ⟨rfl, rfl⟩
  | ldr3c => cases (exec_ldr3c_of_compat hb).symm.trans h; exact ⟨rfl, rfl⟩
  | pClear | pLoad | pHold | pShiftU | pShiftG => cases hc

/-- Every step goes on, by the kind of edge: the primitive's own, a reset of the core, or a command of the build. -/
theorem step_stepped (s : State) : ∃ t, step s = .next t ∧ Stepped s t := by
  cases he : s.nextEdge with
  | prim p =>
    obtain ⟨f, hstep⟩ := step_prim he
    refine ⟨_, hstep, ?_, ?_, ?_, rfl, rfl, rfl, fun q hq => ?_⟩
    · rw [he]; rfl
    · rw [he]; rfl
    · simp [he, Edge.errAfter, Edge.resetsCore, Edge.runsReserved]
    · cases he.symm.trans hq
  | core p =>
    cases hr : p.rst with
    | true =>
      refine ⟨_, step_core_rst he hr, ?_, ?_, ?_, rfl, rfl, rfl, fun _ _ => rfl⟩
      · simp only [he, Edge.regsAfter, hr, if_true]; rfl
      · simp [he, Edge.ksvAfter, hr]
      · simp [he, Edge.errAfter, Edge.resetsCore, hr]
    | false =>
      obtain ⟨t, hstep, hksv, herr⟩ := step_core_cmd_status he hr
      obtain ⟨hbuild, hinputs⟩ := step_build_inputs hstep
      obtain ⟨hregs, hprim⟩ := exec_regs_prim (s := s.takeEdge) (isCommand_decodeCmd ..) (inBuild_decodeCmd ..)
        ((step_core_cmd he hr).symm.trans hstep)
      refine ⟨t, hstep, ?_, ?_, ?_, hbuild, hinputs, congrArg Prim.params hprim, fun _ _ => hprim⟩
      · simp only [he, Edge.regsAfter, hr]; exact hregs
      · rw [he, Bool.eq_iff_iff, hksv]; simp [Edge.ksvAfter, hr]
      · simp [he, Edge.errAfter, Edge.resetsCore, Edge.runsReserved, hr, herr]

/-- A step that answers `t` has stepped to it. -/
theorem stepped_of_step {s t : State} (h : step s = .next t) : Stepped s t := by
  obtain ⟨u, hstep, hu⟩ := step_stepped s
  cases h.symm.trans hstep
  exact hu

/-! Runs over a list of edges. -/

/-- The run of the edges `es` from `s` to `t` did to the core what they say, one after the other. -/
structure RanOver (es : List Edge) (s t : State) : Prop where
  regs : t.regs = es.foldl (Edge.regsAfter s.build) s.regs
  ksv  : t.ksv = es.foldl (Edge.ksvAfter s.build.compatR3Overwrite) s.ksv
  err  : t.err = es.foldl (Edge.errAfter s.build.compatR3Overwrite) s.err

/-- Every list of edges that the host presents is run to its end. -/
theorem run_ranOver (es : List Edge) (s : State) (rest : List Edge) (hin : s.inputs = es ++ rest) :
    ∃ t, Host.Core.run core es.length s = .next t ∧ RanOver es s t := by
  induction es generalizing s with
  | nil => exact ⟨s, run_zero s, rfl, rfl, rfl⟩
  | cons e es ih =>
    obtain ⟨u, hstep, hu⟩ := step_stepped s
    obtain ⟨t, hrun, ht⟩ := ih u (by rw [hu.inputs, hin]; rfl)
    have he : s.nextEdge = e := State.nextEdge_of_inputs hin
    refine ⟨t, (run_succ_of_step hstep _).trans hrun, ?_, ?_, ?_⟩
    · rw [ht.regs, hu.build, hu.regs, he]; rfl
    · rw [ht.ksv, hu.build, hu.ksv, he]; rfl
    · rw [ht.err, hu.build, hu.err, he]; rfl

/-- The three registers of two states are the same. -/
theorem sameRegs_iff {s t : State} : SameRegs s t ↔ t.regs = s.regs := by
  simp [SameRegs, State.regs]

/-- The core's part of two states is the same. -/
theorem sameCore_iff {s t : State} : SameCore s t ↔ t.regs = s.regs ∧ t.ksv = s.ksv ∧ t.err = s.err := by
  simp [SameCore, State.regs, and_assoc]

/-! Edges that run `NOP` or a reserved command (R69, R75). -/

/-- An edge that runs `NOP` is one of the core, with `rst = 0`. -/
theorem Edge.runsNop_iff (compat : Bool) (e : Edge) :
    e.runsNop compat = true ↔ ∃ p, e = .core p ∧ p.rst = false ∧ decodeCmd compat p.word = .nop := by
  cases e with
  | core p => simp [Edge.runsNop]
  | prim p => simp [Edge.runsNop]

/-- An edge that runs a reserved command is one of the core, with `rst = 0`. -/
theorem Edge.runsReserved_iff (compat : Bool) (e : Edge) :
    e.runsReserved compat = true ↔ ∃ p, e = .core p ∧ p.rst = false ∧ (decodeCmd compat p.word).isReserved = true := by
  cases e with
  | core p => simp [Edge.runsReserved]
  | prim p => simp [Edge.runsReserved]

section Quiet

variable {e : Edge}

theorem Edge.regsAfter_of_runsNop {b : Build} (h : e.runsNop b.compatR3Overwrite = true) (r : Regs) :
    e.regsAfter b r = r := by
  obtain ⟨p, rfl, hr, hnop⟩ := (Edge.runsNop_iff ..).mp h
  simp [Edge.regsAfter, hr, hnop, Regs.after]

theorem Edge.ksvAfter_of_runsNop {compat : Bool} (h : e.runsNop compat = true) (ksv : Bool) :
    e.ksvAfter compat ksv = false := by
  obtain ⟨p, rfl, hr, hnop⟩ := (Edge.runsNop_iff ..).mp h
  simp [Edge.ksvAfter, hnop]

theorem Edge.errAfter_of_runsNop {compat : Bool} (h : e.runsNop compat = true) (err : Bool) :
    e.errAfter compat err = err := by
  obtain ⟨p, rfl, hr, hnop⟩ := (Edge.runsNop_iff ..).mp h
  simp [Edge.errAfter, Edge.resetsCore, Edge.runsReserved, hr, hnop, Instr.isReserved]

theorem Edge.regsAfter_of_runsReserved {b : Build} (h : e.runsReserved b.compatR3Overwrite = true) (r : Regs) :
    e.regsAfter b r = r := by
  obtain ⟨p, rfl, hr, hres⟩ := (Edge.runsReserved_iff ..).mp h
  simp [Edge.regsAfter, hr, Regs.after_of_isReserved hres]

theorem Edge.ksvAfter_of_runsReserved {compat : Bool} (h : e.runsReserved compat = true) (ksv : Bool) :
    e.ksvAfter compat ksv = false := by
  obtain ⟨p, rfl, hr, hres⟩ := (Edge.runsReserved_iff ..).mp h
  have hgen : decodeCmd compat p.word ≠ .gen := by intro hg; rw [hg] at hres; cases hres
  simp [Edge.ksvAfter, hgen]

end Quiet

/-- A function of the edges that an edge running `NOP` leaves alone does not see those edges. -/
theorem foldl_dropNops {α : Type} {compat : Bool} {f : α → Edge → α}
    (hf : ∀ e, e.runsNop compat = true → ∀ a, f a e = a) (es : List Edge) (a : α) :
    (dropNops compat es).foldl f a = es.foldl f a := by
  induction es generalizing a with
  | nil => rfl
  | cons e es ih =>
    cases he : e.runsNop compat with
    | true => rw [dropNops, List.filter_cons_of_neg (by simp [he]), List.foldl_cons, hf e he]; exact ih a
    | false => rw [dropNops, List.filter_cons_of_pos (by simp [he]), List.foldl_cons]; exact ih (f a e)

/-- A function of the edges that does the same at a reserved command and at the `NOP` in its place does the same over
the lists. -/
theorem foldl_nopForReserved {α : Type} {compat : Bool} {f : α → Edge → α} {es es' : List Edge}
    (hf : ∀ e e' a, e.runsReserved compat = true → e'.runsNop compat = true → f a e' = f a e)
    (h : List.Forall₂ (NopForReserved compat) es es') (a : α) : es'.foldl f a = es.foldl f a := by
  induction h generalizing a with
  | nil => rfl
  | @cons e e' es es' he _ ih =>
    have hhead : f a e' = f a e := by
      obtain rfl | ⟨hres, hnop⟩ := he
      · rfl
      · exact hf e e' a hres hnop
    rw [List.foldl_cons, List.foldl_cons, hhead]
    exact ih (f a e)

/-! Fault-free machines (60_exceptions.md R96, R97). -/

/-- An idle host presents `NOP` (30_encoding.md R40), which is not reserved. -/
theorem idleEdge_runsReserved (compat : Bool) : idleEdge.runsReserved compat = false := by
  simp [idleEdge, Edge.runsReserved, CorePorts.word, Instr.isReserved]

/-- The next edge of a fault-free machine, listed or idle, runs no reserved command. -/
theorem State.FaultFree.nextEdge {s : State} (h : s.FaultFree) :
    s.nextEdge.runsReserved s.build.compatR3Overwrite = false := by
  obtain ⟨-, hin⟩ := h
  cases hs : s.inputs with
  | nil =>
    have hidle : s.nextEdge = idleEdge := by rw [State.nextEdge, hs, List.headD_nil]
    rw [hidle]
    exact idleEdge_runsReserved _
  | cons e es => rw [State.nextEdge_of_inputs hs]; exact hin e (by simp [hs])

/-! The readable bit and zero registers. -/

/-- The combiner reads the registers as the keystream function does (41_keystream_core.md R66). -/
theorem State.ks_eq_out (s : State) : s.ks = s.regs.out := rfl

/-- While `KSV` is 1 the readable bit is the keystream function's `out` of the registers. -/
theorem State.keystreamBit?_eq_out {s : State} (h : s.ksv = true) : s.keystreamBit? = some s.regs.out :=
  if_pos h

/-- While `KSV` is 0 no keystream bit is readable (10_state.md R21). -/
theorem State.keystreamBit?_of_ksv_eq_false {s : State} (h : s.ksv = false) : s.keystreamBit? = none := by
  simp [State.keystreamBit?, h]

/-- All three registers are zero. -/
theorem zeroRegs_iff {s : State} : ZeroRegs s ↔ s.regs = .zero := by
  simp [ZeroRegs, State.regs, Regs.zero]

/-- The edges that carry neither `LOAD 1` nor `LDR3C` leave zero registers zero. -/
theorem Edge.regsAfter_zero {e : Edge} {b : Build} (h : ∀ p, e = .core p → p.rst = false →
    decodeCmd b.compatR3Overwrite p.word ≠ .load true ∧ decodeCmd b.compatR3Overwrite p.word ≠ .ldr3c) :
    e.regsAfter b .zero = .zero := by
  cases e with
  | prim p => rfl
  | core p =>
    cases hr : p.rst with
    | true => simp [Edge.regsAfter, hr]
    | false =>
      obtain ⟨hload, hldr3c⟩ := h p rfl hr
      simp [Edge.regsAfter, hr, Regs.after_zero hload hldr3c]

end Sys2Proof.Machine

namespace Sys2Proof.Proofs

open Sys2Proof.Machine Sys2Proof.Session Sys2Proof.Claims

/-- Settles O48: the registers and ERR after a run are folded over its edges, and an edge that runs `NOP` leaves both
alone, so the fold sees the list without such edges alone. -/
theorem pausesChangeNoRegister : Obligations.PausesChangeNoRegister := by
  intro es es' s s' rest rest' hbuild hregs herr hdrop hin hin'
  obtain ⟨t, hrun, ht⟩ := run_ranOver es s rest hin
  obtain ⟨t', hrun', ht'⟩ := run_ranOver es' s' rest' hin'
  have hsame {α : Type} {f : α → Edge → α}
      (hf : ∀ e, e.runsNop s.build.compatR3Overwrite = true → ∀ a, f a e = a) (a : α) :
      es'.foldl f a = es.foldl f a := by
    rw [← foldl_dropNops hf, ← hdrop, foldl_dropNops hf]
  refine ⟨t, t', hrun, hrun', sameRegs_iff.mpr ?_, ?_⟩
  · rw [ht.regs, ht'.regs, hbuild, sameRegs_iff.mp hregs, hsame fun _ h => Edge.regsAfter_of_runsNop h]
  · rw [ht.err, ht'.err, hbuild, herr, hsame fun _ h => Edge.errAfter_of_runsNop h]

/-- Settles O39: neither ERR nor the next edge raises ERR, and the edges left to come are among those that came. -/
theorem stepKeepsFaultFree : Obligations.StepKeepsFaultFree := by
  intro s t hs hstep
  have ht := stepped_of_step hstep
  have hnext := hs.nextEdge
  obtain ⟨herr, hin⟩ := hs
  refine ⟨?_, fun e he => ?_⟩
  · rw [ht.err, Edge.errAfter, herr, hnext]; simp
  · rw [ht.inputs] at he
    rw [ht.build]
    exact hin e (List.mem_of_mem_tail he)

/-- Settles O38: a reserved command and the `NOP` in its place do the same to the registers and to KSV, hence so do the
lists. -/
theorem reservedCommandsActAsNops : Obligations.ReservedCommandsActAsNops := by
  intro es es' s s' rest rest' hbuild hregs hksv hrel hin hin'
  obtain ⟨t, hrun, ht⟩ := run_ranOver es s rest hin
  obtain ⟨t', hrun', ht'⟩ := run_ranOver es' s' rest' hin'
  rw [← hrel.length_eq] at hrun'
  refine ⟨t, t', hrun, hrun', sameRegs_iff.mpr ?_, ?_⟩
  · rw [ht.regs, ht'.regs, ← hbuild, sameRegs_iff.mp hregs]
    refine foldl_nopForReserved (fun e e' r hres hnop => ?_) hrel _
    rw [Edge.regsAfter_of_runsNop hnop, Edge.regsAfter_of_runsReserved hres]
  · rw [ht.ksv, ht'.ksv, ← hbuild, hksv]
    refine (foldl_nopForReserved (fun e e' k hres hnop => ?_) hrel _).symm
    rw [Edge.ksvAfter_of_runsNop hnop, Edge.ksvAfter_of_runsReserved hres]

/-- Settles O41, by induction on the number of steps. -/
theorem configurationIsFixed : Obligations.ConfigurationIsFixed := by
  intro n
  induction n with
  | zero => exact fun s => ⟨s, run_zero s, rfl, rfl⟩
  | succ n ih =>
    intro s
    obtain ⟨u, hstep, hu⟩ := step_stepped s
    obtain ⟨t, hrun, hbuild, hparams⟩ := ih u
    exact ⟨t, (run_succ_of_step hstep n).trans hrun, hbuild.trans hu.build, hparams.trans hu.params⟩

/-- Settles O42: an edge of the primitive leaves the core, one of the core leaves the primitive, and what an edge does to
the core is a function of the core's part of the state and the build. -/
theorem separateHardwareSharesNothing : Obligations.SeparateHardwareSharesNothing := by
  refine ⟨?prim, ?core, ?alike⟩
  case prim =>
    intro s t p he hstep
    obtain ⟨f, hprim⟩ := step_prim he
    cases hstep.symm.trans hprim
    exact ⟨⟨rfl, rfl, rfl, rfl, rfl⟩, rfl⟩
  case core =>
    intro s t p he hstep
    have ht := stepped_of_step hstep
    exact ⟨ht.prim p he, ht.build⟩
  case alike =>
    intro s s' p he he' hsame hbuild
    obtain ⟨hregs, hksv, herr⟩ := sameCore_iff.mp hsame
    obtain ⟨t, hstep, ht⟩ := step_stepped s
    obtain ⟨t', hstep', ht'⟩ := step_stepped s'
    refine ⟨t, t', hstep, hstep', sameCore_iff.mpr ⟨?_, ?_, ?_⟩⟩
    · rw [ht.regs, ht'.regs, he, he', hbuild, hregs]
    · rw [ht.ksv, ht'.ksv, he, he', hbuild, hksv]
    · rw [ht.err, ht'.err, he, he', hbuild, herr]

/-- Settles O43: after a core edge with `rst = 0` KSV is 1 only for `GEN`, and `NOP` keeps the registers, which `ks`
reads. -/
theorem ksAfterNopIsNoKeystreamBit : Obligations.KsAfterNopIsNoKeystreamBit := by
  intro s p he hr
  obtain ⟨t, hstep, ht⟩ := step_stepped s
  have hksv : decodeCmd s.build.compatR3Overwrite p.word ≠ .gen → t.ksv = false := by
    intro hgen
    simp [ht.ksv, he, Edge.ksvAfter, hgen]
  refine ⟨t, hstep, fun hnop => ⟨?_, ?_⟩, fun hgen => State.keystreamBit?_of_ksv_eq_false (hksv hgen)⟩
  · have hruns : s.nextEdge.runsNop s.build.compatR3Overwrite = true := (Edge.runsNop_iff ..).mpr ⟨p, he, hr, hnop⟩
    rw [State.ks_eq_out, ht.regs, Edge.regsAfter_of_runsNop hruns, State.ks_eq_out]
  · exact State.keystreamBit?_of_ksv_eq_false (hksv (ne_of_eq_of_ne hnop nofun))

/-- Settles O45: no edge but those two moves zero registers, and the equations of the keystream start from zero
registers, mix in zeros and run rounds. -/
theorem zeroRegistersStayZero : Obligations.ZeroRegistersStayZero := by
  refine ⟨fun s hz hedge => ?step, fun v n => ?keystream⟩
  case step =>
    obtain ⟨t, hstep, ht⟩ := step_stepped s
    have hregs : t.regs = .zero := by rw [ht.regs, zeroRegs_iff.mp hz]; exact Edge.regsAfter_zero hedge
    exact ⟨t, hstep, zeroRegs_iff.mpr hregs, by rw [State.ks_eq_out, hregs, Regs.out_zero]⟩
  case keystream =>
    rw [keystream, produced, warmStart, mixed_zero, rounds_zero, rounds_zero, Regs.out_zero]

/-- Settles O40: ERR is 0 after reset, and what the host presents is as the statement asks. -/
theorem resetIsFaultFree : Obligations.ResetIsFaultFree :=
  ⟨⟨rfl, nofun⟩, fun _ h => ⟨rfl, h⟩⟩

end Sys2Proof.Proofs

/-!
SUPPORT. The whole session as a list of commands, linearity of the mixing phase, and the length of a session; then the
statements about the session's keystream (42_session_protocol.md).
-/

namespace Sys2Proof.Session

open Sys2Proof.Machine

/-! The whole session (R80, R85 to R87). -/

/-- One list of commands and then another. -/
theorem regsAfter_append (overwrite : R3Bits) (r : Regs) (is js : List Instr) :
    regsAfter overwrite r (is ++ js) = regsAfter overwrite (regsAfter overwrite r is) js :=
  List.foldl_append

/-- `n` `GEN`s are `n` rounds. -/
theorem regsAfter_replicate_gen (overwrite : R3Bits) (n : Nat) (r : Regs) :
    regsAfter overwrite r (List.replicate n .gen) = rounds n r := by
  induction n generalizing r with
  | zero => rfl
  | succ n ih => exact ih r.round

/-- A session for `n` bits leaves `n` rounds of `W100`, whatever the registers were. -/
theorem regsAfter_session (v : Variant) (overwrite : R3Bits) (k : SessionKey) (f : FrameCounter) (n : Nat) (r : Regs) :
    regsAfter overwrite r (session v k f n) = rounds n (produced v overwrite k f) := by
  rw [session, regsAfter_append, regsAfter_expand_initOf, expand, regsAfter_replicate_gen]

/-- A session for at least one bit ends with a `GEN`. -/
theorem ksvAfter_session (v : Variant) (k : SessionKey) (f : FrameCounter) (n : Nat) (ksv : Bool) :
    ksvAfter ksv (session v k f (n + 1)) = true := by
  rw [session, expand, List.replicate_succ', ← List.append_assoc, ksvAfter, List.foldl_append]
  rfl

/-- Every command of a session can be issued where its variant is available (R84). -/
theorem issuable_of_mem_session {v : Variant} {k : SessionKey} {f : FrameCounter} {n : Nat} {b : Build} {i : Instr}
    (hv : v.available b = true) (h : i ∈ session v k f n) : Issuable b.compatR3Overwrite i := by
  obtain hinit | hgen := List.mem_append.mp h
  · exact issuable_of_mem_expand_initOf hv hinit
  · obtain rfl : i = .gen := List.eq_of_mem_replicate hgen
    exact ⟨rfl, rfl, rfl⟩

/-- The presented session has one edge a command. -/
@[simp] theorem length_edges (is : List Instr) : (edges is).length = is.length := List.length_map _

@[simp] theorem length_loads (bits : List Bool) : (loads bits).length = bits.length := List.length_map _

@[simp] theorem length_warmups : warmups.length = 100 := List.length_replicate

/-- A default session is 1 `CLR`, 64 and 22 `LOAD`s, 100 `WARM`s, and a `GEN` a bit. -/
theorem length_session_default (k : SessionKey) (f : FrameCounter) (n : Nat) :
    (session .default k f n).length = 187 + n := by
  simp only [session, initOf, expand, List.length_append, List.length_cons, List.length_replicate, length_loads,
    length_keyFeed, length_frameFeed, length_warmups]

/-- The compatibility session has one `LDR3C` more. -/
theorem length_session_compat (k : SessionKey) (f : FrameCounter) (n : Nat) :
    (session .compat k f n).length = 188 + n := by
  simp only [session, initOf, expand, List.length_append, List.length_cons, List.length_nil, List.length_replicate,
    length_loads, length_keyFeed, length_frameFeed, length_warmups]

/-! Linearity of the mixing phase (R82, R83; 40_shift_register.md R62 (d)). -/

/-- Registers XORed bit by bit. -/
def Regs.xor (r r' : Regs) : Regs := ⟨r.r1 ^^^ r'.r1, r.r2 ^^^ r'.r2, r.r3 ^^^ r'.r3⟩

/-- One mixing step is linear. -/
theorem Regs.mix_xor (r r' : Regs) (b b' : Bool) : (r.xor r').mix (b ^^ b') = (r.mix b).xor (r'.mix b') := by
  simp only [Regs.mix, Regs.xor, shiftU_xor]

/-- So are any number of them. -/
theorem mixAll_xor {ι : Type} (is : List ι) (b b' : ι → Bool) (r r' : Regs) :
    mixAll (r.xor r') (is.map fun i => b i ^^ b' i) = (mixAll r (is.map b)).xor (mixAll r' (is.map b')) := by
  induction is generalizing r r' with
  | nil => rfl
  | cons i is ih =>
    simp only [mixAll, List.map_cons, List.foldl_cons, Regs.mix_xor]
    exact ih _ _

theorem keyFeed_xor (k k' : SessionKey) :
    keyFeed (k ^^^ k') = (List.range Config.keyBits).map fun i => k.getLsbD i ^^ k'.getLsbD i :=
  List.map_congr_left fun _ _ => BitVec.getLsbD_xor

theorem frameFeed_xor (f f' : FrameCounter) :
    frameFeed (f ^^^ f') = (List.range Config.frameBits).map fun i => f.getLsbD i ^^ f'.getLsbD i :=
  List.map_congr_left fun _ _ => BitVec.getLsbD_xor

/-- The mixing phase is linear in key and frame counter together, since it starts from zero registers. -/
theorem mixed_xor (k k' : SessionKey) (f f' : FrameCounter) :
    mixed (k ^^^ k') (f ^^^ f') = (mixed k f).xor (mixed k' f') := by
  have hzero : Regs.zero = Regs.zero.xor .zero := rfl
  rw [mixed, keyFeed_xor, frameFeed_xor, hzero, mixAll_xor, mixAll_xor]
  rfl

end Sys2Proof.Session

namespace Sys2Proof.Proofs

open Sys2Proof.Machine Sys2Proof.Session

/-- Settles O46: all commands of the session can be issued, so it is run to its end; it leaves `n + 1` rounds of `W100`
in the registers, and its last command is a `GEN`. -/
theorem sessionYieldsTheKeystream : Obligations.SessionYieldsTheKeystream := by
  intro v k f n s rest hv herr hin
  obtain ⟨t, hrun, hran, hrest⟩ := run_edges _ s rest (fun _ => issuable_of_mem_session hv) hin
  have hregs : t.regs = rounds (n + 1) (produced v s.build.r3OverwriteValue k f) :=
    hran.regs.trans (regsAfter_session ..)
  have hksv : t.ksv = true := hran.ksv.trans (ksvAfter_session ..)
  have hbit : t.keystreamBit? = some (keystream v s.build.r3OverwriteValue k f n) :=
    (State.keystreamBit?_eq_out hksv).trans (congrArg (fun r => some r.out) hregs)
  exact ⟨t, hrun, hbit, hran.err.trans herr, hran.build, hran.prim, hrest⟩

/-- Settles O50: the registers after mixing are linear, register by register. -/
theorem mixingIsLinear : Obligations.MixingIsLinear := by
  intro k k' f f'
  rw [mixed_xor]
  exact ⟨rfl, rfl, rfl⟩

/-- Settles O53: each byte meets the keystream byte of its index twice. -/
theorem combiningTwiceGivesTheData : Obligations.CombiningTwiceGivesTheData := by
  intro v overwrite k f m
  refine List.ext_getElem (by simp) fun j hj hm => ?_
  rw [getElem_combine _ _ hj (by simpa using hm), getElem_combine _ m _ hm, BitVec.xor_assoc, BitVec.xor_self,
    BitVec.xor_zero]

/-- Settles O55: a step takes one edge whatever it does, and a session has one edge a command. -/
theorem oneEdgeForEachCommand : Obligations.OneEdgeForEachCommand := by
  refine ⟨fun s e es hin => ?step, fun k f n => ⟨?default, ?compat⟩⟩
  case step =>
    obtain ⟨t, hstep, ht⟩ := step_stepped s
    exact ⟨t, hstep, by rw [ht.inputs, hin, List.tail_cons]⟩
  case default => rw [length_edges, byteSession, length_session_default]
  case compat => rw [length_edges, byteSession, length_session_compat]

end Sys2Proof.Proofs

/-!
SUPPORT. The line of one word, comments and the case of letters in the assembler, and the digits of a listing; then the
statements about the assembler and the listing form (30_encoding.md §5).
-/

namespace Sys2Proof.Assembler

open Sys2Proof.Session

/-! The lines of the assembler (R47). -/

/-- The line that names a word is assembled to that word: for the mnemonics, and for `.word` with each hex digit. -/
theorem assembleLine_lineOf (compat : Bool) (w : CmdWord) : assembleLine compat (lineOf compat w) = .ok [w] := by
  revert compat w; decide

/-- A line that names one word puts it before the words of the rest of the program. -/
theorem assemble_cons_lineOf {compat : Bool} {rest : List (List Char)} {ws : List CmdWord} (w : CmdWord)
    (h : assemble compat rest = .ok ws) : assemble compat (lineOf compat w :: rest) = .ok (w :: ws) := by
  rw [assemble, assembleLine_lineOf, h]
  rfl

/-- The first `;` of a line is where its comment starts, so one more comment at its end is no part of it. -/
theorem stripComment_append_comment (line comment : List Char) :
    stripComment (line ++ ';' :: comment) = stripComment line := by
  induction line with
  | nil => rfl
  | cons c cs ih => rw [List.cons_append, stripComment, stripComment, ih]

/-- Lower case makes a `;` of no other character, since it makes letters of letters and leaves the others. -/
theorem toLower_eq_semicolon_iff (c : Char) : c.toLower = ';' ↔ c = ';' := by
  cases halpha : c.isAlpha with
  | true =>
    have hlower : c.toLower.isAlpha = true := c.isAlpha_toLower_eq_isAlpha.trans halpha
    exact iff_of_false (fun h => by rw [h] at hlower; cases hlower) (fun h => by rw [h] at halpha; cases halpha)
  | false =>
    have hupper : ¬ c.isUpper := fun h => by simp [Char.isAlpha, h] at halpha
    rw [Char.toLower_eq_of_not_isUpper hupper]

/-- Where a comment starts does not depend on the case of letters. -/
theorem map_toLower_stripComment (line : List Char) :
    (stripComment line).map Char.toLower = stripComment (line.map Char.toLower) := by
  induction line with
  | nil => rfl
  | cons c cs ih =>
    simp only [List.map_cons, stripComment, toLower_eq_semicolon_iff]
    split
    · rfl
    · rw [List.map_cons, ih]

/-- A line is read in lower case, comment and all. -/
theorem tokens_eq (line : List Char) : tokens line = tokensFrom [] (stripComment (line.map Char.toLower)) := by
  rw [tokens, map_toLower_stripComment]

/-- A line means what its tokens mean. -/
theorem assembleLine_congr {compat : Bool} {line line' : List Char} (h : tokens line = tokens line') :
    assembleLine compat line = assembleLine compat line' := by
  rw [assembleLine, assembleLine, h]

/-! The listing form (R49). -/

/-- The digit of a word is read back as its number. -/
theorem hexVal_toLower_hexDigit (w : CmdWord) : hexVal (hexDigit w).toLower = some w.toNat := by
  revert w; decide

/-- A listing reads back as the words it was written for, digit by digit. -/
theorem readListing_listing (ws : List CmdWord) : readListing (listing ws) = some ws := by
  induction ws with
  | nil => rfl
  | cons w ws ih =>
    have hcons : listing (w :: ws) = hexDigit w :: listing ws := rfl
    rw [hcons, readListing, hexVal_toLower_hexDigit, ih]
    simp

/-- The initialisation with key 0 and frame counter 0: `CLR`, 86 times `LOAD 0`, 100 times `WARM` (R49). -/
theorem words_init_zero :
    words (.init 0#64 0#22) = [0x2#4] ++ List.replicate 86 0x4#4 ++ List.replicate 100 0x6#4 := by
  have hK : words (.loadK 0#64) = List.replicate 64 0x4#4 := by
    rw [words, expand, filterMap_commandWord?_loads, keyFeed_zero, List.map_replicate, cmdWord_load]; rfl
  have hF : words (.loadF 0#22) = List.replicate 22 0x4#4 := by
    rw [words, expand, filterMap_commandWord?_loads, frameFeed_zero, List.map_replicate, cmdWord_load]; rfl
  rw [words_init, words_warmup, hK, hF, List.append_assoc [0x2#4], List.replicate_append_replicate]

end Sys2Proof.Assembler

namespace Sys2Proof.Proofs

open Sys2Proof.Session Sys2Proof.Assembler

/-- Settles O57: line by line over the words; a comment ends what `stripComment` keeps; and lines that are equal in lower
case have the same tokens. -/
theorem assemblerReadsEveryProgram : Obligations.AssemblerReadsEveryProgram := by
  refine ⟨fun compat ws => ?program, fun compat line comment => ?comment, fun compat line line' h => ?case⟩
  case program =>
    induction ws with
    | nil => rfl
    | cons w ws ih => exact assemble_cons_lineOf w ih
  case comment =>
    apply assembleLine_congr
    rw [tokens, stripComment_append_comment, tokens]
  case case =>
    apply assembleLine_congr
    rw [tokens_eq, h, tokens_eq]

/-- Settles O56: one digit a word, read back digit by digit, and the words of `INIT 0, 0`. -/
theorem listingRoundTrip : Obligations.ListingRoundTrip := by
  refine ⟨fun ws => ⟨List.length_map _, readListing_listing ws⟩, ?_⟩
  rw [words_init_zero, listing, List.map_append, List.map_append, List.map_replicate, List.map_replicate]
  rfl

end Sys2Proof.Proofs

/-!
SUPPORT. The edge of the stand-alone primitive as a function of its ports, and the gated round by the agreement of the
three clocking bits; then the statements about the primitive (40_shift_register.md) and the datapath
(41_keystream_core.md §1).
-/

namespace Sys2Proof.Machine

open Sys2Proof.Claims

/-! The edge of the stand-alone primitive (40_shift_register.md R53). -/

/-- The signals on the primitive's ports. -/
def PrimPorts.control (p : PrimPorts) : Control := ⟨p.clr, p.ld, p.en, p.mode, p.ib⟩

/-- What a primitive's register becomes at an edge with these ports. -/
def PrimPorts.next (p : PrimPorts) (m : Prim) : BitVec m.params.len :=
  primEdge m.params p.rst p.control (ldValPort m.params.len p.ldVal) m.q

theorem exec_pLoad (v : Nat) (s : State) :
    exec (.pLoad v) s = .next (withQ s (ldValPort s.prim.params.len v)) := rfl

@[simp] theorem decodeCtrl_load (en mode ib : Bool) (v : Nat) :
    decodeCtrl (ctrlVec false true en mode ib) v = .pLoad v := by
  rw [decodeCtrl_ctrlVec]; rfl

/-- An edge of the primitive with `rst = 1`. -/
theorem step_prim_rst {s : State} {p : PrimPorts} (he : s.nextEdge = .prim p) (hr : p.rst = true) :
    step s = .next s.takeEdge.resetPrim := by
  simp [step, he, edgeAction, hr]

/-- An edge of the primitive with `rst = 0`. -/
theorem step_prim_cmd {s : State} {p : PrimPorts} (he : s.nextEdge = .prim p) (hr : p.rst = false) :
    step s = exec (decodeCtrl p.vector p.ldVal) s.takeEdge :=
  step_run (by simp [he, edgeAction, hr, decode])

/-- The operations of the control-vector table are, row by row, what a primitive does at its edge with `rst = 0`. -/
theorem exec_decodeCtrl (clr ld en mode ib : Bool) (v : Nat) (s : State) :
    exec (decodeCtrl (ctrlVec clr ld en mode ib) v) s =
      .next (withQ s (PrimPorts.next ⟨false, clr, ld, en, mode, ib, v⟩ s.prim)) := by
  rw [decodeCtrl_ctrlVec]
  match clr, ld, en, mode with
  | true, _, _, _ => exact exec_pClear s
  | false, true, _, _ => exact exec_pLoad v s
  | false, false, false, _ => exact exec_pHold s
  | false, false, true, false => exact exec_pShiftU ib s
  | false, false, true, true => exact exec_pShiftG ib s

/-- A step at an edge of the primitive, whatever its ports carry. -/
theorem step_prim_next {s : State} {p : PrimPorts} (he : s.nextEdge = .prim p) :
    step s = .next { withQ s (p.next s.prim) with inputs := s.inputs.tail } := by
  obtain ⟨rst, clr, ld, en, mode, ib, v⟩ := p
  cases rst with
  | true => exact step_prim_rst he rfl
  | false => exact (step_prim_cmd he rfl).trans (exec_decodeCtrl clr ld en mode ib v s.takeEdge)

section Priority

variable {p : PrimPorts} (m : Prim)

theorem PrimPorts.next_rst (hr : p.rst = true) : p.next m = 0#_ := by
  rw [PrimPorts.next, hr, primEdge_rst]

variable (hr : p.rst = false)
include hr

theorem PrimPorts.next_clr (hc : p.clr = true) : p.next m = 0#_ := by
  rw [PrimPorts.next, hr, primEdge_clr _ _ _ _ hc]

variable (hc : p.clr = false)
include hc

theorem PrimPorts.next_ld (hl : p.ld = true) : p.next m = BitVec.ofNat _ p.ldVal := by
  rw [PrimPorts.next, hr, primEdge_ld _ _ _ _ hc hl, ldValPort]

variable (hl : p.ld = false)
include hl

theorem PrimPorts.next_hold (he : p.en = false) : p.next m = m.q := by
  rw [PrimPorts.next, hr, primEdge_hold _ _ _ _ hc hl he]

theorem PrimPorts.next_clock (he : p.en = true) :
    p.next m =
      if p.mode then shiftG m.params.ci m.params.taps m.q p.ib else shiftU m.params.taps m.q p.ib := by
  rw [PrimPorts.next, hr, primEdge_clock _ _ _ _ hc hl he]
  rfl

end Priority

/-- The value that its register already holds changes nothing in the primitive. -/
theorem withQ_self {s : State} {q : BitVec s.prim.params.len} (h : q = s.prim.q) : withQ s q = s := by
  rw [h]; rfl

/-! The agreement of the clocking bits with their majority (41_keystream_core.md R64, R65). -/

/-- At least two of three bits are their majority. -/
theorem two_eq_majority (c1 c2 c3 : Bool) :
    (c1 = majority c1 c2 c3 ∧ c2 = majority c1 c2 c3) ∨ (c1 = majority c1 c2 c3 ∧ c3 = majority c1 c2 c3) ∨
      (c2 = majority c1 c2 c3 ∧ c3 = majority c1 c2 c3) := by
  cases c1 <;> cases c2 <;> cases c3 <;> decide

/-- Three equal bits are their majority. -/
theorem majority_self (c : Bool) : majority c c c = c := by
  cases c <;> rfl

/-- A bit that differs from both others is not their majority. -/
theorem ne_majority (c1 c2 c3 : Bool) :
    (c1 ≠ c2 → c1 ≠ c3 → c1 ≠ majority c1 c2 c3) ∧ (c2 ≠ c1 → c2 ≠ c3 → c2 ≠ majority c1 c2 c3) ∧
      (c3 ≠ c1 → c3 ≠ c2 → c3 ≠ majority c1 c2 c3) := by
  cases c1 <;> cases c2 <;> cases c3 <;> decide

/-- The majority of a state by the indices of its clocking bits (10_state.md R19). -/
theorem State.maj_eq (s : State) : s.maj = majority (s.r1.getLsbD 8) (s.r2.getLsbD 10) (s.r3.getLsbD 10) := rfl

/-- `WARM` and `GEN` are the gated clock of all three registers with another value in `KSV` (R72, R73). -/
theorem exec_warm_or_gen {i : Instr} (h : i = .warm ∨ i = .gen) (s : State) :
    ∃ ksv, exec i s = .next (s.clockG.setKsv ksv) := by
  obtain rfl | rfl := h
  exacts [⟨false, exec_warm s⟩, ⟨true, exec_gen s⟩]

end Sys2Proof.Machine

namespace Sys2Proof.Proofs

open Sys2Proof.Machine Sys2Proof.Claims

/-- Settles O20: the step at an edge of the primitive is `primEdge` of its ports, and each clause is one priority of
it. -/
theorem primitiveEdgePriority : Obligations.PrimitiveEdgePriority := by
  intro s p he
  refine ⟨p.next s.prim, step_prim_next he, PrimPorts.next_rst _, PrimPorts.next_clr _, PrimPorts.next_ld _,
    PrimPorts.next_hold _, ?unconditional, ?gated⟩
  case unconditional =>
    intro hr hc hl hen hm
    rw [PrimPorts.next_clock _ hr hc hl hen, hm]
    exact shifted_shiftU _ _ _
  case gated =>
    intro hr hc hl hen hm
    rw [PrimPorts.next_clock _ hr hc hl hen, if_pos hm]
    split
    case isTrue hagree => exact shifted_shiftG _ hagree
    case isFalse hdiffer => exact shiftG_hold _ _ _ _ hdiffer

/-- Settles O28: each law is the one of `shiftU` or `shiftG`, of which the operations are made. -/
theorem primitiveLaws : Obligations.PrimitiveLaws := by
  intro s
  refine ⟨⟨exec_pHold s, fun b hb => ?hold⟩, fun b t ht => ?alwaysShift, fun a b p q => ?linear, fun b hb => ?agree,
    fun hq => ?zero⟩
  case hold => rw [exec_pShiftG, withQ_self (shiftG_hold _ _ _ b hb)]
  case alwaysShift =>
    cases ht
    exact ⟨rfl, getLsbD_shiftU_succ _ s.prim.q b⟩
  case linear =>
    refine ⟨_, _, exec_pShiftU a (withQ s p), exec_pShiftU b (withQ s q), ?_⟩
    exact (exec_pShiftU _ _).trans (congrArg (fun r => Host.Outcome.next (withQ s r)) (shiftU_xor _ p q a b))
  case agree => rw [exec_pShiftG, shiftG_agree _ _ _ b hb, exec_pShiftU]
  case zero =>
    refine ⟨?_, ?_, ?_⟩
    · rw [exec_pShiftU, withQ_self (by rw [hq, shiftU_zero])]
    · rw [exec_pShiftG, withQ_self (by rw [hq, shiftG_zero])]
    · rw [exec_pShiftG, withQ_self (by rw [hq, shiftG_zero])]

/-- Settles O26: the row `0,1,x,x,x`, and the low bits of the number on the port. -/
theorem pLoadTakesThePort : Obligations.PLoadTakesThePort := by
  refine ⟨decodeCtrl_load, fun v s => ⟨_, exec_pLoad v s, BitVec.toNat_ofNat v _, fun hv => ?_⟩⟩
  exact (BitVec.toNat_ofNat v _).trans (Nat.mod_eq_of_lt hv)

/-- Settles O30: a register shifts if its clocking bit is the majority, which at least two bits are, and holds if it is
not, as a bit alone against two. -/
theorem atLeastTwoRegistersShift : Obligations.AtLeastTwoRegistersShift := by
  intro i s hi
  obtain ⟨ksv, hexec⟩ := exec_warm_or_gen hi s
  have hne := ne_majority (s.r1.getLsbD 8) (s.r2.getLsbD 10) (s.r3.getLsbD 10)
  rw [← s.maj_eq] at hne
  obtain ⟨hne1, hne2, hne3⟩ := hne
  refine ⟨_, hexec, ?two, ?all, fun h h' => State.clockG_r1_of_ne (hne1 h h'),
    fun h h' => State.clockG_r2_of_ne (hne2 h h'), fun h h' => State.clockG_r3_of_ne (hne3 h h')⟩
  case two =>
    have htwo := two_eq_majority (s.r1.getLsbD 8) (s.r2.getLsbD 10) (s.r3.getLsbD 10)
    rw [← s.maj_eq] at htwo
    obtain ⟨h1, h2⟩ | ⟨h1, h3⟩ | ⟨h2, h3⟩ := htwo
    · exact .inl ⟨State.clockG_r1_shifted h1, State.clockG_r2_shifted h2⟩
    · exact .inr (.inl ⟨State.clockG_r1_shifted h1, State.clockG_r3_shifted h3⟩)
    · exact .inr (.inr ⟨State.clockG_r2_shifted h2, State.clockG_r3_shifted h3⟩)
  case all =>
    intro h12 h23
    have hmaj : s.r3.getLsbD 10 = s.maj := by rw [s.maj_eq, h12, h23, majority_self]
    exact ⟨State.clockG_r1_shifted (h12.trans (h23.trans hmaj)), State.clockG_r2_shifted (h23.trans hmaj),
      State.clockG_r3_shifted hmaj⟩

/-- Settles O32: the majority is computed first, so no register's clock reads another register. -/
theorem sequentialClockingAgrees : Obligations.SequentialClockingAgrees := fun s => ⟨exec_warm s, exec_gen s⟩

end Sys2Proof.Proofs

/-!
SUPPORT. The steps at edges that present an encoded instruction, and which words decode to reserved commands; then the
statements about the encoding (30_encoding.md), about what a step is, and about the first edge after power-on
(70_reset_and_hazards.md).
-/

namespace Sys2Proof.Machine

open Sys2Proof.Claims

/-! What is taken from the inputs. -/

/-- With an edge listed, the others are left. -/
theorem State.takeEdge_of_inputs {s : State} {e : Edge} {es : List Edge} (h : s.inputs = e :: es) :
    s.takeEdge = { s with inputs := es } := by
  rw [State.takeEdge, h, List.tail_cons]

/-- With none listed there is nothing to take. -/
theorem State.takeEdge_of_nil {s : State} (h : s.inputs = []) : s.takeEdge = s := by
  rw [State.takeEdge, h, List.tail_nil, ← h]

/-- With no edge listed a step runs `NOP` (30_encoding.md R40). -/
theorem step_idle {s : State} (h : s.inputs = []) : step s = exec .nop s := by
  have hidle : edgeAction s.build.compatR3Overwrite s.nextEdge = .run .nop := by
    rw [State.nextEdge, h]
    exact congrArg Action.run (decodeCmd_op000 s.build.compatR3Overwrite false)
  rw [step_run hidle, State.takeEdge_of_nil h]

/-- An encoded instruction that is presented is decoded by the build and executed. -/
theorem step_present_encoded (e : Encoded) (s : State) :
    step (s.present (edgeOfEncoded e)) = exec (decode s.build.compatR3Overwrite e) s :=
  step_run (edgeAction_edgeOfEncoded s.build.compatR3Overwrite e)

/-! Words of the opcode table (30_encoding.md §2). -/

/-- A word that decodes is an encoded instruction which the default build decodes. -/
theorem encodedOfTableWord_of_decodeTableWord {nbits w : Nat} {i : Instr} (h : decodeTableWord nbits w = some i) :
    ∃ e, encodedOfTableWord nbits w = .ok e ∧ decode false e = i := by
  rw [decodeTableWord] at h
  cases he : encodedOfTableWord nbits w with
  | error r => rw [he] at h; cases h
  | ok e => rw [he] at h; exact ⟨e, rfl, Option.some.inj h⟩

/-- Such a word is presented as that instruction. -/
theorem State.withFetchWord_of_ok {nbits w : Nat} {e : Encoded} (h : encodedOfTableWord nbits w = .ok e) (s : State) :
    s.withFetchWord nbits w = s.present (edgeOfEncoded e) := by
  rw [State.withFetchWord, h]

/-! What decodes to an instruction of the build, and to a reserved command (30_encoding.md R44). -/

/-- An operation of a primitive exists in both builds. -/
theorem inBuild_of_not_isCommand {i : Instr} (h : i.isCommand = false) (compat : Bool) : i.inBuild compat = true := by
  cases i with
  | pClear | pLoad | pHold | pShiftU | pShiftG => rfl
  | _ => cases h

/-- Everything that can be presented decodes to an instruction of the build. -/
theorem inBuild_decode (compat : Bool) (e : Encoded) : (decode compat e).inBuild compat = true := by
  cases e with
  | cmd cw => exact inBuild_decodeCmd compat cw
  | ctrl pc v => exact inBuild_of_not_isCommand (isCommand_decodeCtrl pc v) compat

/-- The reserved opcodes. -/
theorem isReserved_decodeCmd_cmdWord (compat : Bool) (op : Opcode) (din : Bool) :
    (decodeCmd compat (cmdWord op din)).isReserved = true ↔
      op = 0b110#3 ∨ op = 0b111#3 ∨ (op = 0b101#3 ∧ compat = false) := by
  revert compat op din; decide

/-- The reserved words of the default build. -/
theorem isReserved_decodeCmd_default (cw : CmdWord) : (decodeCmd false cw).isReserved = true ↔ 0xA ≤ cw.toNat := by
  revert cw; decide

end Sys2Proof.Machine

namespace Sys2Proof.Proofs

open Sys2Proof.Machine Sys2Proof.Claims

/-- Settles O4, by the kind of the next edge and its `rst`, and for the idle host. -/
theorem stepRunsTheDecodedInstruction : Obligations.StepRunsTheDecodedInstruction := by
  intro s es
  refine ⟨fun p => step_core_cmd_of_inputs, fun p hin hr => ?coreReset, fun p hin hr => ?primCmd,
    fun p hin hr => ?primReset, step_idle⟩
  case coreReset => rw [step_core_rst (State.nextEdge_of_inputs hin) hr, State.takeEdge_of_inputs hin]
  case primCmd =>
    rw [step_prim_cmd (State.nextEdge_of_inputs hin) hr, State.takeEdge_of_inputs hin, PrimPorts.vector]
  case primReset => rw [step_prim_rst (State.nextEdge_of_inputs hin) hr, State.takeEdge_of_inputs hin]

/-- Settles O5: the build decodes the encoding of its own instruction to that instruction. -/
theorem presentedInstructionRuns : Obligations.PresentedInstructionRuns := by
  intro i s hb
  rw [edgeOfInstr, step_present_encoded, decode_encode hb]

/-- Settles O6: the word is presented as the instruction that the default build decodes from it. -/
theorem fetchedWordRuns : Obligations.FetchedWordRuns := by
  intro s nbits w i hb hdec
  obtain ⟨e, he, rfl⟩ := encodedOfTableWord_of_decodeTableWord hdec
  rw [State.withFetchWord_of_ok he, step_present_encoded, hb]

/-- Settles O9: the reserved opcodes, the reserved words of the default build, and the effect of any of them. -/
theorem reservedWords : Obligations.ReservedWords :=
  ⟨isReserved_decodeCmd_cmdWord, isReserved_decodeCmd_default, fun s _ _ h => exec_of_isReserved h s⟩

/-- Settles O11: decoding inverts encoding on the instructions of the build, and whatever is presented decodes to one of
these. -/
theorem decodeInvertsEncode : Obligations.DecodeInvertsEncode :=
  ⟨fun _ _ => decode_encode, fun compat e => ⟨inBuild_decode compat e, decode_encode (inBuild_decode compat e)⟩⟩

/-- Settles O18: the reserved rows of the opcode map, their one effect, and that the next step runs what is presented
next. -/
theorem reservedCommandSetsErr : Obligations.ReservedCommandSetsErr := by
  refine ⟨decodeCmd_op101 false, fun compat din => ⟨decodeCmd_op110 compat din, decodeCmd_op111 compat din⟩, ?effect,
    ?after⟩
  case effect =>
    rintro i s (rfl | rfl | rfl) <;> exact exec_of_isReserved rfl s
  case after =>
    intro i j s t es hi hib hjb hin hstep
    rw [step_edgeOfInstr hib hin, exec_of_isReserved hi, State.takeEdge_of_inputs hin] at hstep
    cases hstep
    exact step_edgeOfInstr hjb rfl

/-- Settles O44: `CLR` writes everything but ERR, a reserved command KSV and ERR alone, and a reset all five. -/
theorem firstEdgeAfterPowerOn : Obligations.FirstEdgeAfterPowerOn := by
  intro build params legal n es s
  refine ⟨⟨_, exec_clr s, ⟨rfl, rfl, rfl⟩, rfl, rfl⟩, ⟨_, exec_of_isReserved rfl s, rfl, rfl, rfl⟩, ?reset⟩
  case reset =>
    intro p rest hes hr
    have hin : s.inputs = .core p :: rest := hes
    exact ⟨_, step_core_rst (State.nextEdge_of_inputs hin) hr, ⟨rfl, rfl, rfl⟩, rfl, rfl, congrArg List.tail hin⟩

end Sys2Proof.Proofs
